-- ==== Sys2Proof/Config.lean ====
section
/-! DEFINITION. Config: the scalar parameters of EP-CORE, each at the value the third column of rule R10
(spec/00_scope.md) gives. The parameters that are tables (the S-boxes, the MixColumns matrix, the permutation
tables, the shift schedule) stand in Sys2Proof/Machine/Rom.lean. EP-CORE leaves no value open, so there is no
free value here (notes/assumptions/7.md). -/

namespace Sys2Proof.Config

/-- `EPCORE_VERSION` (R3): the command-set version, a constant on which nothing depends. -/
def epcoreVersion : Nat := 1

/-- `PERM_MAX` (R10): the largest source length and the largest table length of the permutation engine. -/
def permMax : Nat := 64

/-- `IDX_W` (R10): the width of one entry of `PERM_TBL`. -/
def idxW : Nat := 7

/-- `DATA_W` (R10): the width of the value a WRITE carries and a READ returns. -/
def dataW : Nat := 128

/-- `CMD_W` (R10): the width of a command word. -/
def cmdW : Nat := 8

/-- `N_DES_ROUNDS` (R10): the number of Feistel rounds. -/
def nDesRounds : Nat := 2

end Sys2Proof.Config
end

