-- ==== Sys2Proof/Word.lean ====
section
/-! DEFINITION. Word: the names of the widths the transactions and the units use (spec/00_scope.md rules R10 to R17). -/

namespace Sys2Proof

/-- An "integer in [0,255]" (R11), also a GF(2^8) element: bit i is the coefficient of x^i (R18). -/
abbrev Byte := BitVec 8

/-- The value a WRITE carries and a READ returns: `DATA_W` = 128 bits (R10). -/
abbrev Word := BitVec 128

/-- A register id (R21: "The register id is 8 bits wide"). -/
abbrev RegId := BitVec 8

/-- A command word: `CMD_W` = 8 bits (R10, R85). -/
abbrev CmdWord := BitVec 8

/-- A `BitString` (R13): an ordered sequence of bits, the first bit first (position 0). -/
abbrev BitString := List Bool

/-- A StateMatrix (R16, R24): the 16 bytes `b_0 … b_15` of an AES block; `b_i` stands at row `i mod 4`,
column `i div 4`. -/
abbrev StateMatrix := Vector Byte 16

end Sys2Proof
end

