-- ==== Sys2Proof/Syntax.lean ====
section
/-! DEFINITION. Syntax: the command set, one constructor per row of spec/opcode_table.json (rule R88 of
spec/30_encoding.md). No command has an operand field: its operands are the fixed registers its rule names (R85, R86). -/

namespace Sys2Proof

/-- The 18 commands of EP-CORE (R88). -/
inductive Instr where
  /-- `NOP`, 0x00 (R200) -/
  | nop
  /-- `CLRERR`, 0x01 (R201) -/
  | clrerr
  /-- `SUBBYTES`, 0x10 (R120) -/
  | subbytes
  /-- `SHIFTROWS`, 0x11 (R123) -/
  | shiftrows
  /-- `MIXCOLS`, 0x12 (R127) -/
  | mixcols
  /-- `ADDRKEY`, 0x13 (R131) -/
  | addrkey
  /-- `AESROUND`, 0x14 (R135) -/
  | aesround
  /-- `GFMUL`, 0x20 (R107) -/
  | gfmul
  /-- `DESF`, 0x30 (R183) -/
  | desf
  /-- `DESSBOX`, 0x31 (R180) -/
  | dessbox
  /-- `DESKS`, 0x32 (R167) -/
  | desks
  /-- `DES2ENC`, 0x33 (R191) -/
  | des2enc
  /-- `PERM.USR`, 0x40 (R146) -/
  | permUsr
  /-- `PERM.IP`, 0x41 (R147) -/
  | permIp
  /-- `PERM.FP`, 0x42 (R147) -/
  | permFp
  /-- `PERM.E`, 0x43 (R147) -/
  | permE
  /-- `PERM.P`, 0x44 (R147) -/
  | permP
  /-- `PERM.PC2`, 0x45 (R147) -/
  | permPc2
deriving DecidableEq, Repr

/-- Every command, in the table's order (R88). -/
def Instr.all : List Instr :=
  [.nop, .clrerr,
   .subbytes, .shiftrows, .mixcols, .addrkey, .aesround,
   .gfmul,
   .desf, .dessbox, .desks, .des2enc,
   .permUsr, .permIp, .permFp, .permE, .permP, .permPc2]

end Sys2Proof
end

