-- ==== Sys2Proof/WellFormed.lean ====
section
/-! DEFINITION. WellFormed: what the spec demands of the syntax and of the configuration tables before a rule holds.
A command has no operand (R86), so there is nothing in an `Instr` to check: what can be ill-formed is a
permutation table, the shift schedule and a substitution table. Each check takes the table as data, so that
Sys2Proof/Machine/Rom.lean's tables are shown to meet it and an ill-formed one is refused. -/

namespace Sys2Proof

/-- A command is well-formed when it is one of the 18 rows of rule R88; the type admits no other (R86: no operand
field, no immediate). -/
def Instr.wf (i : Instr) : Bool := Instr.all.contains i

/-- A permutation table fit for a source of `n` bits and a result of `m` bits (R141, R147): its length is the result's
length and every entry is a 1-based position of the source. -/
def permTableWf (n m : Nat) (T : List Nat) : Bool :=
  T.length == m && T.all fun q => decide (1 ≤ q) && decide (q ≤ n)

/-- The shift schedule (R168): one amount per round, each in 1..27. -/
def shiftScheduleWf (S : List Nat) : Bool :=
  S.length == Config.nDesRounds && S.all fun k => decide (1 ≤ k) && decide (k ≤ 27)

/-- The AES S-box (R117): "a fixed 16x16 lookup table of Byte". -/
def aesSboxWf (T : List (List Byte)) : Bool :=
  T.length == 16 && T.all fun row => row.length == 16

/-- The MixColumns matrix (R124): a 4x4 matrix over the coefficients {01, 02, 03}. -/
def mixMatrixWf (M : List (List Byte)) : Bool :=
  M.length == 4 && M.all fun row => row.length == 4 && row.all fun x => x == 1 || x == 2 || x == 3

/-- The DES S-box bank (R176): "8 tables, each 4 rows x 16 columns of 4-bit values". -/
def desSboxWf (B : List (List (List Nat))) : Bool :=
  B.length == 8 && B.all fun bank =>
    bank.length == 4 && bank.all fun row => row.length == 16 && row.all fun x => decide (x < 16)

end Sys2Proof
end

