-- ==== Sys2Proof/Decode.lean ====
section
/-! DEFINITION. Decode: the decoder of rule R87 over the opcode table of rule R88 (spec/30_encoding.md), total on every
8-bit word and on every list of bytes, and after it the encoder. Decoding reads no state (R87). -/

namespace Sys2Proof

/-- One row of the opcode map (R88): the mask of rule R87, the code and the command it selects. -/
structure OpcodeRow where
  mask  : Byte
  code  : Byte
  instr : Instr
deriving DecidableEq, Repr

/-- A row of rule R88: "mask 0xFF for every row" (R87). -/
def opcodeRow (code : Byte) (i : Instr) : OpcodeRow := { mask := 0xFF#8, code := code, instr := i }

/-- The complete command set (R88). -/
def opcodeTable : List OpcodeRow :=
  [opcodeRow 0x00#8 .nop, opcodeRow 0x01#8 .clrerr,
   opcodeRow 0x10#8 .subbytes, opcodeRow 0x11#8 .shiftrows, opcodeRow 0x12#8 .mixcols,
   opcodeRow 0x13#8 .addrkey, opcodeRow 0x14#8 .aesround,
   opcodeRow 0x20#8 .gfmul,
   opcodeRow 0x30#8 .desf, opcodeRow 0x31#8 .dessbox, opcodeRow 0x32#8 .desks, opcodeRow 0x33#8 .des2enc,
   opcodeRow 0x40#8 .permUsr, opcodeRow 0x41#8 .permIp, opcodeRow 0x42#8 .permFp, opcodeRow 0x43#8 .permE,
   opcodeRow 0x44#8 .permP, opcodeRow 0x45#8 .permPc2]

/-- Decoding one command word (R87): the row whose code the word matches under the row's mask; `none` is an illegal
command (R90). -/
def decode (c : CmdWord) : Option Instr :=
  (opcodeTable.find? fun r => c &&& r.mask == r.code).map (·.instr)

/-- What the byte decoder answers: a command and the bytes after it, or the reason it refuses, by name. -/
inductive Decoded where
  /-- the first byte is a command of R88; the rest of the bytes follow it (R91: one word, one command) -/
  | command (i : Instr) (rest : List Byte)
  /-- the first byte is one of the 238 illegal words (R90) -/
  | illegalCmd (c : CmdWord)
  /-- there is no byte to decode -/
  | noWord
deriving DecidableEq, Repr

/-- Decoding a list of bytes: every command is one 8-bit word (R85). -/
def decodeBytes : List Byte → Decoded
  | [] => .noWord
  | c :: rest =>
    match decode c with
    | some i => .command i rest
    | none => .illegalCmd c

/-- The command the decoder reads from an instruction of `nbits` bits whose bits are `w`. A command is one byte, so a
word that does not fit `CMD_W` bits is no command (R85, R91). -/
def decodeTableWord (nbits w : Nat) : Option Instr :=
  if w % 2 ^ nbits < 2 ^ Config.cmdW then
    match decodeBytes [BitVec.ofNat 8 (w % 2 ^ nbits)] with
    | .command i _ => some i
    | .illegalCmd _ => none
    | .noWord => none
  else none

/-- The unit group `grp` of a command (R85: bits 7:4 of the word). -/
def Instr.grp : Instr → BitVec 4
  | .nop => 0 | .clrerr => 0
  | .subbytes => 1 | .shiftrows => 1 | .mixcols => 1 | .addrkey => 1 | .aesround => 1
  | .gfmul => 2
  | .desf => 3 | .dessbox => 3 | .desks => 3 | .des2enc => 3
  | .permUsr => 4 | .permIp => 4 | .permFp => 4 | .permE => 4 | .permP => 4 | .permPc2 => 4

/-- The function `fn` within the group (R85: bits 3:0 of the word); for group 4 it selects the table (R86). -/
def Instr.fn : Instr → BitVec 4
  | .nop => 0 | .clrerr => 1
  | .subbytes => 0 | .shiftrows => 1 | .mixcols => 2 | .addrkey => 3 | .aesround => 4
  | .gfmul => 0
  | .desf => 0 | .dessbox => 1 | .desks => 2 | .des2enc => 3
  | .permUsr => 0 | .permIp => 1 | .permFp => 2 | .permE => 3 | .permP => 4 | .permPc2 => 5

/-- The word of a command: `grp || fn` (R85, format `CMD8`). -/
def encode (i : Instr) : CmdWord := i.grp ++ i.fn

end Sys2Proof
end

