-- ==== Sys2Proof/Machine/State.lean ====
section
/-! DEFINITION. State: everything spec/10_state.md gives EP-CORE (rule R20), as plain data, with the state after reset;
beside it the two fields that the model adds so that the host's transactions are data too. -/

namespace Sys2Proof.Machine

/-- The architectural state of one EP-CORE (R20): the 19 data and control registers of rule R21, STATUS (R42) and the
table RAM `PERM_TBL` (R40), and nothing more. -/
structure Engine where
  /-- `AES_S`, id 0x00 (R24) -/
  aesS : BitVec 128
  /-- `AES_K`, id 0x01 (R25) -/
  aesK : BitVec 128
  /-- `AES_O`, id 0x02 (R26) -/
  aesO : BitVec 128
  /-- `GF_A`, id 0x08 (R27) -/
  gfA : BitVec 8
  /-- `GF_B`, id 0x09 (R27) -/
  gfB : BitVec 8
  /-- `GF_P`, id 0x0A (R27) -/
  gfP : BitVec 8
  /-- `DES_R`, id 0x10 (R28) -/
  desR : BitVec 32
  /-- `DES_RK`, id 0x11 (R29) -/
  desRk : BitVec 48
  /-- `DES_F`, id 0x12 (R30) -/
  desF : BitVec 32
  /-- `DES_KEY`, id 0x13 (R31) -/
  desKey : BitVec 56
  /-- `DES_K1`, id 0x14 (R32) -/
  desK1 : BitVec 48
  /-- `DES_K2`, id 0x15 (R32) -/
  desK2 : BitVec 48
  /-- `DES_PT`, id 0x16 (R33) -/
  desPt : BitVec 64
  /-- `DES_CT`, id 0x17 (R33) -/
  desCt : BitVec 64
  /-- `PERM_SRC`, id 0x20 (R34) -/
  permSrc : BitVec 64
  /-- `PERM_SRCLEN`, id 0x21 (R35) -/
  permSrclen : BitVec 7
  /-- `PERM_TLEN`, id 0x22 (R36) -/
  permTlen : BitVec 7
  /-- `PERM_OUT`, id 0x23 (R37) -/
  permOut : BitVec 64
  /-- `PERM_OLEN`, id 0x24 (R37) -/
  permOlen : BitVec 7
  /-- `STATUS`, id 0x30 (R42); its fields are read and written by Sys2Proof/Machine/Flags.lean -/
  status : BitVec 8
  /-- `PERM_TBL[0..63]`, ids 0x40 to 0x7F (R40) -/
  permTbl : Vector (BitVec 7) 64
deriving DecidableEq, Repr

/-- A register of rule R21 by its name; `permTbl i` is `PERM_TBL[i]`. -/
inductive Reg where
  | aesS | aesK | aesO
  | gfA | gfB | gfP
  | desR | desRk | desF | desKey | desK1 | desK2 | desPt | desCt
  | permSrc | permSrclen | permTlen | permOut | permOlen
  | status
  | permTbl (i : Fin 64)
deriving DecidableEq, Repr

/-- The errors of rule R206 (code 0, NONE, is never raised). -/
inductive EpError where
  /-- 1: CMD with a word outside rule R88 (R208) -/
  | illegalCmd
  /-- 2: WRITE to an unmapped id or to a host-RO register (R209) -/
  | badAccess
  /-- 3: a value or a length that does not fit (R210) -/
  | length
  /-- 4: a table entry out of range, fatal (R211) -/
  | tableIndex
deriving DecidableEq, Repr

/-- A host transaction (R8, R60 to R64); the ids and values are any 8-bit and 128-bit numbers. -/
inductive Transaction where
  /-- `RESET` (R60) -/
  | reset
  /-- `WRITE(id, v)` (R61) -/
  | write (id : RegId) (v : Word)
  /-- `READ(id)` (R62) -/
  | read (id : RegId)
  /-- `CMD(c)` (R64) -/
  | cmd (c : CmdWord)
deriving DecidableEq, Repr

/-- The state of the model: the engine, the transactions the host has issued and the engine has not yet taken, and what the
last transaction returned. DESIGN CHOICE (notes/assumptions/1.md): `pending` and `response` are the model's own, not
the spec's (R20); they hold the argument and the result of the spec's step
`EngineState -> Transaction -> EngineState x Option Value` (R8). -/
structure State where
  /-- the architectural state (R20) -/
  engine : Engine
  /-- the host's transactions, the next one first (R76: they take effect in the order the host issues them) -/
  pending : List Transaction
  /-- the value the latest transaction returned: `some v` for a READ, `none` for the others (R60 to R64) -/
  response : Option Word
deriving DecidableEq, Repr

/-- Why a step could stop with a fault: there is no such reason, so the type has no constructor. Every error of EP-CORE is
an error entry recorded in STATUS (R205, R215), that is a next state; nothing is left undefined. Safe: nothing is
proved of a faulting step, because none exists. -/
inductive Fault
deriving DecidableEq, Repr

/-- Why a step could be refused. -/
inductive Refusal where
  /-- Raised by an arm of `exec` whose command has no meaning yet, under the command's mnemonic; safe (the model stops where
  the hardware goes on). No arm of this model raises it. -/
  | notModelled (mnemonic : String)
deriving DecidableEq, Repr

/-- The engine after RESET (R236, R55): every register, every table entry and STATUS zero. -/
def Engine.reset : Engine where
  aesS := 0
  aesK := 0
  aesO := 0
  gfA := 0
  gfB := 0
  gfP := 0
  desR := 0
  desRk := 0
  desF := 0
  desKey := 0
  desK1 := 0
  desK2 := 0
  desPt := 0
  desCt := 0
  permSrc := 0
  permSrclen := 0
  permTlen := 0
  permOut := 0
  permOlen := 0
  status := 0
  permTbl := Vector.replicate 64 0

/-- The machine right after reset: the engine of rule R236, no transaction waiting and nothing returned
(notes/assumptions/1.md for the last two). -/
def State.reset : State := { engine := Engine.reset, pending := [], response := none }

end Sys2Proof.Machine
end

