-- ==== Sys2Proof/Machine/Flags.lean ====
section
/-! DEFINITION. Flags: the fields of STATUS (R42), the only flags EP-CORE has (R41: no arithmetic flag, no condition
code), the codes of rule R206 and the output line `ERR_O` (R214). -/

namespace Sys2Proof.Machine

/-- `STATUS.ERR`, bit 0 (R42). -/
def statusErr (st : BitVec 8) : Bool := st.getLsbD 0

/-- `STATUS.HALT`, bit 1 (R42). -/
def statusHalt (st : BitVec 8) : Bool := st.getLsbD 1

/-- `STATUS.ERRCODE`, bits 4:2 (R42). -/
def statusErrcode (st : BitVec 8) : BitVec 3 := st.extractLsb' 2 3

/-- Bits 7:5 of STATUS, reserved (R42). -/
def statusReserved (st : BitVec 8) : BitVec 3 := st.extractLsb' 5 3

/-- `STATUS.ERR <- b`, the other bits kept. -/
def withErr (st : BitVec 8) (b : Bool) : BitVec 8 := (st &&& 0xFE#8) ||| (BitVec.ofBool b).setWidth 8

/-- `STATUS.HALT <- b`, the other bits kept. -/
def withHalt (st : BitVec 8) (b : Bool) : BitVec 8 := (st &&& 0xFD#8) ||| ((BitVec.ofBool b).setWidth 8 <<< 1)

/-- `STATUS.ERRCODE <- c`, the other bits kept. -/
def withErrcode (st : BitVec 8) (c : BitVec 3) : BitVec 8 := (st &&& 0xE3#8) ||| (c.setWidth 8 <<< 2)

/-- The code of an error (R206). -/
def EpError.code : EpError → BitVec 3
  | .illegalCmd => 1
  | .badAccess => 2
  | .length => 3
  | .tableIndex => 4

/-- `ERR` of an engine. -/
def Engine.err (e : Engine) : Bool := statusErr e.status

/-- `HALT` of an engine: it ignores WRITE and CMD (R63). -/
def Engine.halted (e : Engine) : Bool := statusHalt e.status

/-- `ERRCODE` of an engine. -/
def Engine.errcode (e : Engine) : BitVec 3 := statusErrcode e.status

/-- The level output `ERR_O`, "equal to `STATUS.ERR` at all times" (R214). -/
def Engine.errO (e : Engine) : Bool := e.err

end Sys2Proof.Machine
end

