-- ==== Sys2Proof/Machine/Operands.lean ====
section
/-! DEFINITION. Operands: the register id space (R21, R74), the one address space of EP-CORE: which register an id names,
its width, what the host may do with it, and the read and the write of one whole register (R70, R73). Commands have no
operand forms: each names its registers itself (R22, R86). -/

namespace Sys2Proof.Machine

/-- The ids of the registers of rule R21 other than the table RAM. -/
def regIds : List (RegId × Reg) :=
  [(0x00#8, .aesS), (0x01#8, .aesK), (0x02#8, .aesO),
   (0x08#8, .gfA), (0x09#8, .gfB), (0x0A#8, .gfP),
   (0x10#8, .desR), (0x11#8, .desRk), (0x12#8, .desF), (0x13#8, .desKey),
   (0x14#8, .desK1), (0x15#8, .desK2), (0x16#8, .desPt), (0x17#8, .desCt),
   (0x20#8, .permSrc), (0x21#8, .permSrclen), (0x22#8, .permTlen), (0x23#8, .permOut), (0x24#8, .permOlen),
   (0x30#8, .status)]

/-- The register an id names (R21): `PERM_TBL[i]` for id 0x40 + i, i = 0..63; `none` for an unmapped id. -/
def Reg.ofId (id : RegId) : Option Reg :=
  if h : 0x40 ≤ id.toNat ∧ id.toNat < 0x80 then some (.permTbl ⟨id.toNat - 0x40, by omega⟩)
  else (regIds.find? fun r => r.1 == id).map (·.2)

/-- The id of a register (R21). -/
def Reg.id : Reg → RegId
  | .aesS => 0x00 | .aesK => 0x01 | .aesO => 0x02
  | .gfA => 0x08 | .gfB => 0x09 | .gfP => 0x0A
  | .desR => 0x10 | .desRk => 0x11 | .desF => 0x12 | .desKey => 0x13
  | .desK1 => 0x14 | .desK2 => 0x15 | .desPt => 0x16 | .desCt => 0x17
  | .permSrc => 0x20 | .permSrclen => 0x21 | .permTlen => 0x22 | .permOut => 0x23 | .permOlen => 0x24
  | .status => 0x30
  | .permTbl i => BitVec.ofNat 8 (0x40 + i.val)

/-- The width of a register (R21). -/
def Reg.width : Reg → Nat
  | .aesS => 128 | .aesK => 128 | .aesO => 128
  | .gfA => 8 | .gfB => 8 | .gfP => 8
  | .desR => 32 | .desRk => 48 | .desF => 32 | .desKey => 56
  | .desK1 => 48 | .desK2 => 48 | .desPt => 64 | .desCt => 64
  | .permSrc => 64 | .permSrclen => 7 | .permTlen => 7 | .permOut => 64 | .permOlen => 7
  | .status => 8
  | .permTbl _ => Config.idxW

/-- Whether the host may write a register (R21, column "host": RW); the others are host-RO. -/
def Reg.hostWritable : Reg → Bool
  | .aesS => true | .aesK => true | .aesO => false
  | .gfA => true | .gfB => true | .gfP => false
  | .desR => true | .desRk => true | .desF => false | .desKey => true
  | .desK1 => false | .desK2 => false | .desPt => true | .desCt => false
  | .permSrc => true | .permSrclen => true | .permTlen => true | .permOut => false | .permOlen => false
  | .status => false
  | .permTbl _ => true

/-- `zext_128(x[id])` (R62): the whole register, zeros above its width (R73). -/
def Engine.get (e : Engine) : Reg → Word
  | .aesS => e.aesS
  | .aesK => e.aesK
  | .aesO => e.aesO
  | .gfA => e.gfA.setWidth 128
  | .gfB => e.gfB.setWidth 128
  | .gfP => e.gfP.setWidth 128
  | .desR => e.desR.setWidth 128
  | .desRk => e.desRk.setWidth 128
  | .desF => e.desF.setWidth 128
  | .desKey => e.desKey.setWidth 128
  | .desK1 => e.desK1.setWidth 128
  | .desK2 => e.desK2.setWidth 128
  | .desPt => e.desPt.setWidth 128
  | .desCt => e.desCt.setWidth 128
  | .permSrc => e.permSrc.setWidth 128
  | .permSrclen => e.permSrclen.setWidth 128
  | .permTlen => e.permTlen.setWidth 128
  | .permOut => e.permOut.setWidth 128
  | .permOlen => e.permOlen.setWidth 128
  | .status => e.status.setWidth 128
  | .permTbl i => (e.permTbl[i.val]).setWidth 128

/-- `x[id] <- v` (R15): the whole register is written (R70). WRITE calls it only for a host-RW register and a value that
fits (R61), so nothing is cut off. -/
def Engine.set (e : Engine) (r : Reg) (v : Word) : Engine :=
  match r with
  | .aesS => { e with aesS := v }
  | .aesK => { e with aesK := v }
  | .aesO => { e with aesO := v }
  | .gfA => { e with gfA := v.setWidth 8 }
  | .gfB => { e with gfB := v.setWidth 8 }
  | .gfP => { e with gfP := v.setWidth 8 }
  | .desR => { e with desR := v.setWidth 32 }
  | .desRk => { e with desRk := v.setWidth 48 }
  | .desF => { e with desF := v.setWidth 32 }
  | .desKey => { e with desKey := v.setWidth 56 }
  | .desK1 => { e with desK1 := v.setWidth 48 }
  | .desK2 => { e with desK2 := v.setWidth 48 }
  | .desPt => { e with desPt := v.setWidth 64 }
  | .desCt => { e with desCt := v.setWidth 64 }
  | .permSrc => { e with permSrc := v.setWidth 64 }
  | .permSrclen => { e with permSrclen := v.setWidth 7 }
  | .permTlen => { e with permTlen := v.setWidth 7 }
  | .permOut => { e with permOut := v.setWidth 64 }
  | .permOlen => { e with permOlen := v.setWidth 7 }
  | .status => { e with status := v.setWidth 8 }
  | .permTbl i => { e with permTbl := e.permTbl.set i.val (v.setWidth 7) }

/-- The table of PERM.USR (R36, R141): the entries `PERM_TBL[0], …, PERM_TBL[m-1]` with m = `PERM_TLEN`; entries at and
above m are left out (R40). -/
def Engine.userTable (e : Engine) : List Nat :=
  (e.permTbl.toList.take e.permTlen.toNat).map BitVec.toNat

end Sys2Proof.Machine
end

