-- ==== Sys2Proof/Machine/Ops.lean ====
section
/-! DEFINITION. Ops: the operations every command and transaction shares: the error entry (R215) and the clearing of an
error (R218), the writes of the output registers, the transactions RESET, WRITE and READ on the engine (R60 to R62) and
the frame of a command (R63, R64). -/

namespace Sys2Proof.Machine

/-- STATUS is written and nothing else. -/
def Engine.withStatus (e : Engine) (st : BitVec 8) : Engine := { e with status := st }

/-- `REG.AES_O <- v` (R26). -/
def Engine.withAesO (e : Engine) (v : BitVec 128) : Engine := { e with aesO := v }

/-- `REG.GF_P <- v` (R27). -/
def Engine.withGfP (e : Engine) (v : BitVec 8) : Engine := { e with gfP := v }

/-- `REG.DES_F <- v` (R30). -/
def Engine.withDesF (e : Engine) (v : BitVec 32) : Engine := { e with desF := v }

/-- `REG.DES_K1 <- k1; REG.DES_K2 <- k2`, always together (R32). -/
def Engine.withDesKeys (e : Engine) (k1 k2 : BitVec 48) : Engine := { e with desK1 := k1, desK2 := k2 }

/-- `REG.DES_CT <- v` (R33). -/
def Engine.withDesCt (e : Engine) (v : BitVec 64) : Engine := { e with desCt := v }

/-- `REG.PERM_OUT <- v; REG.PERM_OLEN <- m`, always together (R37). -/
def Engine.withPermOut (e : Engine) (v : BitVec 64) (m : BitVec 7) : Engine := { e with permOut := v, permOlen := m }

/-- The new STATUS of an error entry (R215): the first error since ERR was last 0 leaves its code; ERR is set;
TABLE_INDEX also sets HALT. -/
def raisedStatus (st : BitVec 8) (x : EpError) : BitVec 8 :=
  let coded := if statusErr st then st else withErrcode st x.code
  let flagged := withErr coded true
  match x with
  | .tableIndex => withHalt flagged true
  | .illegalCmd => flagged
  | .badAccess => flagged
  | .length => flagged

/-- Error entry, `raise E` (R205, R215): STATUS is written as above and every other register keeps its value. Nothing is
saved and control goes nowhere. -/
def Engine.raise (e : Engine) (x : EpError) : Engine := e.withStatus (raisedStatus e.status x)

/-- Acknowledging a recoverable error (R218, R201): ERR and ERRCODE become 0, nothing else changes. -/
def Engine.acknowledge (e : Engine) : Engine := e.withStatus (withErrcode (withErr e.status false) 0)

/-- `WRITE(id, v)` on the engine, its tests in the order of rule R61. -/
def Engine.hostWrite (e : Engine) (id : RegId) (v : Word) : Engine :=
  if e.halted then e
  else
    match Reg.ofId id with
    | none => e.raise .badAccess
    | some r =>
      if r.hostWritable = false then e.raise .badAccess
      else if 2 ^ r.width ≤ v.toNat then e.raise .length
      else e.set r v

/-- The value `READ(id)` returns (R62): the register zero-extended, 0 for an unmapped id. -/
def Engine.hostRead (e : Engine) (id : RegId) : Word :=
  match Reg.ofId id with
  | none => 0
  | some r => e.get r

/-- The frame of every command (R63, R64): under HALT nothing happens; otherwise the command's rule, a function from engine
to engine, is carried out completely. The host's side of the state is left alone. -/
def command (s : State) (rule : Engine → Engine) : Host.Outcome State Fault Refusal :=
  .next (if s.engine.halted then s else { s with engine := rule s.engine })

end Sys2Proof.Machine
end

