-- ==== Sys2Proof/Machine/Gf256.lean ====
section
/-! DEFINITION. Gf256: the GF(2^8) multiplier and the command GFMUL (spec/40_gf256.md). -/

namespace Sys2Proof.Machine

/-- The low byte of `GF_POLY` = 0x11B (R10, R106). -/
def gfPolyLow : Byte := 0x1B#8

/-- The local values of the loop of rule R106: the accumulator p and the local copies of a and b. -/
structure GfLocals where
  p : Byte
  a : Byte
  b : Byte
deriving DecidableEq, Repr

/-- One iteration of rule R106, in its order: accumulate, sample bit 7, shift, reduce, shift b. -/
def gfStep (t : GfLocals) : GfLocals :=
  let p := if t.b.getLsbD 0 then t.p ^^^ t.a else t.p
  let hi := t.a.getLsbD 7
  let shifted := t.a <<< 1
  let a := if hi then shifted ^^^ gfPolyLow else shifted
  { p := p, a := a, b := t.b >>> 1 }

/-- `k` iterations from the given local values. -/
def gfLoop : Nat → GfLocals → GfLocals
  | 0, t => t
  | k + 1, t => gfLoop k (gfStep t)

/-- `gf_mul(a, b)` (R106): "all eight iterations are always done". -/
def gfMul (a b : Byte) : Byte := (gfLoop 8 { p := 0, a := a, b := b }).p

/-- `GFMUL` (R107): `REG.GF_P <- gf_mul(REG.GF_A, REG.GF_B)`. -/
def execGfmul (s : State) : Host.Outcome State Fault Refusal :=
  command s fun e => e.withGfP (gfMul e.gfA e.gfB)

end Sys2Proof.Machine
end

