-- ==== Sys2Proof/Machine/Aes.lean ====
section
/-! DEFINITION. Aes: the AES round pipeline and its five commands (spec/41_aes_round.md). -/

namespace Sys2Proof.Machine

/-- `bytes(v)` (R16): `b_i = v[127-8i : 120-8i]`. -/
def bytes (v : BitVec 128) : StateMatrix := Vector.ofFn fun i => v.extractLsb' (120 - 8 * i.val) 8

/-- Byte `b_i` of a block at its place in the 128-bit register: bits 127-8i to 120-8i (R16). -/
def placeByte (s : StateMatrix) (i : Fin 16) : BitVec 128 := (s[i.val]).setWidth 128 <<< (120 - 8 * i.val)

/-- `pack(b_0..b_15)` (R16), the inverse of `bytes`. -/
def pack (s : StateMatrix) : BitVec 128 := (List.finRange 16).foldl (fun acc i => acc ||| placeByte s i) 0

/-- `S(r, c) = b_(r + 4c)` (R16): the byte at row r, column c. -/
def cell (s : StateMatrix) (r c : Fin 4) : Byte := s[r.val + 4 * c.val]

/-- `sub_bytes(s)` (R120): `o_i <- aes_sbox(b_i)`. -/
def subBytes (s : StateMatrix) : StateMatrix := Vector.ofFn fun i => aesSbox s[i.val]

/-- `src(i)` (R122): the input byte that ShiftRows moves to output byte i. -/
def shiftSrc (i : Nat) : Nat := i % 4 + 4 * ((i / 4 + i % 4) % 4)

theorem shiftSrc_lt (i : Nat) : shiftSrc i < 16 := by unfold shiftSrc; omega

/-- `shift_rows(s)` (R123): `o_i <- b_src(i)`. -/
def shiftRows (s : StateMatrix) : StateMatrix :=
  Vector.ofFn fun i => s[shiftSrc i.val]'(shiftSrc_lt i.val)

/-- `mix_columns(s)` (R125, R127): output byte 4c + row is the exclusive-or over i of
`gf_mul(MIXCOL_M[row][i], b_(4c+i))`. -/
def mixColumns (s : StateMatrix) : StateMatrix :=
  Vector.ofFn fun j =>
    let c := j.val / 4
    let row := j.val % 4
    gfMul (mixcolM row 0) s[4 * c] ^^^ gfMul (mixcolM row 1) s[4 * c + 1]
      ^^^ gfMul (mixcolM row 2) s[4 * c + 2] ^^^ gfMul (mixcolM row 3) s[4 * c + 3]

/-- `add_round_key(s, k)` (R130): `o_i = b_i ^ k_i`. -/
def addRoundKey (s k : StateMatrix) : StateMatrix := Vector.ofFn fun i => s[i.val] ^^^ k[i.val]

/-- `aes_round(s, k)` (R134): the four transforms composed in fixed order, always all four. -/
def aesRound (s k : StateMatrix) : StateMatrix := addRoundKey (mixColumns (shiftRows (subBytes s))) k

/-- `SUBBYTES` (R120): `REG.AES_O <- pack(sub_bytes(bytes(REG.AES_S)))`. -/
def execSubbytes (s : State) : Host.Outcome State Fault Refusal :=
  command s fun e => e.withAesO (pack (subBytes (bytes e.aesS)))

/-- `SHIFTROWS` (R123): `REG.AES_O <- pack(shift_rows(bytes(REG.AES_S)))`. -/
def execShiftrows (s : State) : Host.Outcome State Fault Refusal :=
  command s fun e => e.withAesO (pack (shiftRows (bytes e.aesS)))

/-- `MIXCOLS` (R127): `REG.AES_O <- pack(mix_columns(bytes(REG.AES_S)))`. -/
def execMixcols (s : State) : Host.Outcome State Fault Refusal :=
  command s fun e => e.withAesO (pack (mixColumns (bytes e.aesS)))

/-- `ADDRKEY` (R131): `REG.AES_O <- REG.AES_S ^ REG.AES_K`, 128-bit. -/
def execAddrkey (s : State) : Host.Outcome State Fault Refusal :=
  command s fun e => e.withAesO (e.aesS ^^^ e.aesK)

/-- `AESROUND` (R135): SubBytes, ShiftRows and MixColumns on `AES_S`, then `pack(t3) ^ REG.AES_K`. -/
def execAesround (s : State) : Host.Outcome State Fault Refusal :=
  command s fun e =>
    let t1 := subBytes (bytes e.aesS)
    let t2 := shiftRows t1
    let t3 := mixColumns t2
    e.withAesO (pack t3 ^^^ e.aesK)

end Sys2Proof.Machine
end

