-- ==== Sys2Proof/Machine/Control.lean ====
section
/-! DEFINITION. Control: the control commands NOP and CLRERR (spec/46_control.md). -/

namespace Sys2Proof.Machine

/-- `NOP` (R200): reads nothing, writes nothing, raises nothing. -/
def execNop (s : State) : Host.Outcome State Fault Refusal := command s id

/-- `CLRERR` (R201): `STATUS.ERR <- 0`, `STATUS.ERRCODE <- 0`; ignored under HALT (R63). -/
def execClrerr (s : State) : Host.Outcome State Fault Refusal := command s Engine.acknowledge

end Sys2Proof.Machine
end

