-- ==== Sys2Proof/Machine/BitString.lean ====
section
/-! DEFINITION. BitString: the bit strings of spec/00_scope.md (R13 to R15), how one sits in a register (R14, R68) and the
string functions the units share: `permute` (R141), `rotl` (R15) and `xor` (R185). -/

namespace Sys2Proof.Machine

/-- `str(v, n)` (R14): the n-character string with `str(v, n){p} = v[n-1-p]`. -/
def str (v n : Nat) : BitString := (List.range n).map fun p => v.testBit (n - 1 - p)

/-- `val(s) = sum over p of s{p} * 2^(n-1-p)` (R14), n the length of s; 0 for the empty string. -/
def val : BitString → Nat
  | [] => 0
  | b :: s => b.toNat * 2 ^ s.length + val s

/-- `s{p}` (R13): the bit at 0-based position p; only asked for p below the length. -/
def bitAt (s : BitString) (p : Nat) : Bool := s.getD p false

/-- `s{a..b}` (R13): the substring of positions a to b inclusive. -/
def substr (s : BitString) (a b : Nat) : BitString := (s.drop a).take (b + 1 - a)

/-- `permute(s, T)` (R141): the string o with `o{i} = s{T[i] - 1}`; the callers have checked every entry (R145, R156). -/
def permute (s : BitString) (T : List Nat) : BitString := T.map fun q => bitAt s (q - 1)

/-- `rotl(s, k)` (R15): `rotl(s,k){p} = s{(p+k) mod len(s)}`. -/
def rotl (s : BitString) (k : Nat) : BitString :=
  (List.range s.length).map fun p => bitAt s ((p + k) % s.length)

/-- `xor(s, t)` (R15, R185): the position-wise exclusive-or of two strings of equal length. -/
def xorStr (s t : BitString) : BitString := List.zipWith Bool.xor s t

end Sys2Proof.Machine
end

