-- ==== Sys2Proof/Machine/DesFeistel.lean ====
section
/-! DEFINITION. DesFeistel: the DES Feistel round function and the commands DESSBOX and DESF (spec/44_des_feistel.md). -/

namespace Sys2Proof.Machine

/-- Block i of the S-box stage (R177): its six bits are `x{6i .. 6i+5}`; the row is (first bit, last bit), the column the
middle four, and the cell's four bits are appended most significant first. -/
def sboxBlock (x : BitString) (i : Nat) : BitString :=
  let blk := fun p => (bitAt x (6 * i + p)).toNat
  let row := 2 * blk 0 + blk 5
  let col := 8 * blk 1 + 4 * blk 2 + 2 * blk 3 + blk 4
  str (desSbox i row col) 4

/-- `sbox_sub(x)` (R177): 48 bits to 32 bits. -/
def sboxSub (x : BitString) : BitString := (List.range 8).flatMap (sboxBlock x)

/-- `f(r, k)` (R182): expand, exclusive-or with the round key, substitute, permute. -/
def feistelF (r k : BitString) : BitString :=
  let e := permute r tE
  let x := xorStr e k
  let s := sboxSub x
  permute s tP

/-- `val(sbox_sub(str(x, 48)))` on register values. -/
def sboxReg (x : BitVec 48) : BitVec 32 := BitVec.ofNat 32 (val (sboxSub (str x.toNat 48)))

/-- `val(f(str(r, 32), str(k, 48)))` on register values. -/
def feistelReg (r : BitVec 32) (k : BitVec 48) : BitVec 32 :=
  BitVec.ofNat 32 (val (feistelF (str r.toNat 32) (str k.toNat 48)))

/-- `DESSBOX` (R180): `REG.DES_F <- val(sbox_sub(str(REG.DES_RK, 48)))`. -/
def execDessbox (s : State) : Host.Outcome State Fault Refusal :=
  command s fun e => e.withDesF (sboxReg e.desRk)

/-- `DESF` (R183): `REG.DES_F <- val(f(str(REG.DES_R, 32), str(REG.DES_RK, 48)))`. -/
def execDesf (s : State) : Host.Outcome State Fault Refusal :=
  command s fun e => e.withDesF (feistelReg e.desR e.desRk)

end Sys2Proof.Machine
end

