-- ==== Sys2Proof/Machine/DesKeySched.lean ====
section
/-! DEFINITION. DesKeySched: the DES two-round key scheduler and the command DESKS (spec/43_des_keysched.md). -/

namespace Sys2Proof.Machine

/-- `SHIFT_SCHEDULE[r]` (R168), r counted from 0. -/
def shiftAmount (r : Nat) : Nat := shiftSchedule.getD r 0

/-- `key_schedule(key56) = (K1, K2)` (R166): the shifts accumulate, each half rotates on its own. -/
def keySchedule (key56 : BitString) : BitString × BitString :=
  let c0 := substr key56 0 27
  let d0 := substr key56 28 55
  let c1 := rotl c0 (shiftAmount 0)
  let d1 := rotl d0 (shiftAmount 0)
  let k1 := permute (c1 ++ d1) tPC2
  let c2 := rotl c1 (shiftAmount 1)
  let d2 := rotl d1 (shiftAmount 1)
  let k2 := permute (c2 ++ d2) tPC2
  (k1, k2)

/-- The two round keys of a key register, as register values (R167). -/
def roundKeys (key : BitVec 56) : BitVec 48 × BitVec 48 :=
  let ks := keySchedule (str key.toNat 56)
  (BitVec.ofNat 48 (val ks.1), BitVec.ofNat 48 (val ks.2))

/-- `DESKS` (R167): `DES_K1` and `DES_K2` from `DES_KEY`. -/
def execDesks (s : State) : Host.Outcome State Fault Refusal :=
  command s fun e => e.withDesKeys (roundKeys e.desKey).1 (roundKeys e.desKey).2

end Sys2Proof.Machine
end

