-- ==== Sys2Proof/Machine/DesDriver.lean ====
section
/-! DEFINITION. DesDriver: the DES two-round cipher driver and the command DES2ENC (spec/45_des_driver.md). The five
states of the driver are steps inside one atomic command, not state (R52, R191). -/

namespace Sys2Proof.Machine

/-- `des2(pt, key56)` (R190); the final swap is always done (R192). -/
def des2 (pt key56 : BitString) : BitString :=
  let ip := permute pt tIP
  let l0 := substr ip 0 31
  let r0 := substr ip 32 63
  let ks := keySchedule key56
  let l1 := r0
  let r1 := xorStr l0 (feistelF r0 ks.1)
  let l2 := r1
  let r2 := xorStr l1 (feistelF r1 ks.2)
  let pre := r2 ++ l2
  permute pre tFP

/-- `val(des2(str(pt, 64), str(key, 56)))` on register values. -/
def des2Reg (pt : BitVec 64) (key : BitVec 56) : BitVec 64 :=
  BitVec.ofNat 64 (val (des2 (str pt.toNat 64) (str key.toNat 56)))

/-- `DES2ENC` (R191): `DES_CT` from `DES_PT` and `DES_KEY`, and the round keys DESKS would write. -/
def execDes2enc (s : State) : Host.Outcome State Fault Refusal :=
  command s fun e =>
    (e.withDesKeys (roundKeys e.desKey).1 (roundKeys e.desKey).2).withDesCt (des2Reg e.desPt e.desKey)

end Sys2Proof.Machine
end

