-- ==== Sys2Proof/Machine/Permutation.lean ====
section
/-! DEFINITION. Permutation: the generic table-driven bit permutation engine and its six commands
(spec/42_permutation.md). -/

namespace Sys2Proof.Machine

/-- Check (a) of rule R144 for PERM.USR fails: a length above `PERM_MAX`. -/
def usrLengthBad (e : Engine) : Bool :=
  decide (Config.permMax < e.permSrclen.toNat) || decide (Config.permMax < e.permTlen.toNat)

/-- Check (b) of rule R144 fails: a set bit of `PERM_SRC` at or above position n = `PERM_SRCLEN`. -/
def srcTooLong (e : Engine) : Bool := decide (2 ^ e.permSrclen.toNat ≤ e.permSrc.toNat)

/-- The check of rule R145 fails: an entry `PERM_TBL[i]`, i < `PERM_TLEN`, that is 0 or above `PERM_SRCLEN`. -/
def tableIndexBad (e : Engine) : Bool :=
  e.userTable.any fun q => decide (q = 0) || decide (e.permSrclen.toNat < q)

/-- `val(permute(str(src, n), T))` on register values. -/
def permReg (src : BitVec 64) (n : Nat) (T : List Nat) : BitVec 64 :=
  BitVec.ofNat 64 (val (permute (str src.toNat n) T))

/-- The outputs of a PERM command whose checks have passed (R146, R147): with n the source length and T the table,
`PERM_OUT <- val(permute(str(PERM_SRC, n), T))` and `PERM_OLEN <- len(T)`. -/
def permOutput (e : Engine) (n : Nat) (T : List Nat) : Engine :=
  e.withPermOut (permReg e.permSrc n T) (BitVec.ofNat 7 T.length)

/-- The rule of PERM.USR (R146) with the checks of rules R144 and R145 in their order. -/
def permUsr (e : Engine) : Engine :=
  if usrLengthBad e then e.raise .length
  else if srcTooLong e then e.raise .length
  else if tableIndexBad e then e.raise .tableIndex
  else permOutput e e.permSrclen.toNat e.userTable

/-- The rule of a ROM-table command (R147) with table `T` and required source length `nReq`: the checks of rule R144, then
the outputs. `PERM_TLEN` and `PERM_TBL` are not read. -/
def permRom (nReq : Nat) (T : List Nat) (e : Engine) : Engine :=
  if e.permSrclen.toNat ≠ nReq then e.raise .length
  else if srcTooLong e then e.raise .length
  else permOutput e nReq T

/-- `PERM.USR` (R146). -/
def execPermUsr (s : State) : Host.Outcome State Fault Refusal := command s permUsr

/-- `PERM.IP` (R147): `T_IP`, 64 source bits. -/
def execPermIp (s : State) : Host.Outcome State Fault Refusal := command s (permRom 64 tIP)

/-- `PERM.FP` (R147): `T_FP`, 64 source bits. -/
def execPermFp (s : State) : Host.Outcome State Fault Refusal := command s (permRom 64 tFP)

/-- `PERM.E` (R147): `T_E`, 32 source bits. -/
def execPermE (s : State) : Host.Outcome State Fault Refusal := command s (permRom 32 tE)

/-- `PERM.P` (R147): `T_P`, 32 source bits. -/
def execPermP (s : State) : Host.Outcome State Fault Refusal := command s (permRom 32 tP)

/-- `PERM.PC2` (R147): `T_PC2`, 56 source bits. -/
def execPermPc2 (s : State) : Host.Outcome State Fault Refusal := command s (permRom 56 tPC2)

end Sys2Proof.Machine
end

