-- ==== Sys2Proof/Machine/Dispatch.lean ====
section
/-! DEFINITION. Dispatch: one arm per command of rule R88, each one call of the command's meaning. -/

namespace Sys2Proof.Machine

/-- The meaning of a command (R64: "the command's rule (files 40 to 46) is carried out completely"). -/
def exec (i : Instr) (s : State) : Host.Outcome State Fault Refusal :=
  match i with
  | .nop => Sys2Proof.Machine.execNop s
  | .clrerr => Sys2Proof.Machine.execClrerr s
  | .subbytes => Sys2Proof.Machine.execSubbytes s
  | .shiftrows => Sys2Proof.Machine.execShiftrows s
  | .mixcols => Sys2Proof.Machine.execMixcols s
  | .addrkey => Sys2Proof.Machine.execAddrkey s
  | .aesround => Sys2Proof.Machine.execAesround s
  | .gfmul => Sys2Proof.Machine.execGfmul s
  | .desf => Sys2Proof.Machine.execDesf s
  | .dessbox => Sys2Proof.Machine.execDessbox s
  | .desks => Sys2Proof.Machine.execDesks s
  | .des2enc => Sys2Proof.Machine.execDes2enc s
  | .permUsr => Sys2Proof.Machine.execPermUsr s
  | .permIp => Sys2Proof.Machine.execPermIp s
  | .permFp => Sys2Proof.Machine.execPermFp s
  | .permE => Sys2Proof.Machine.execPermE s
  | .permP => Sys2Proof.Machine.execPermP s
  | .permPc2 => Sys2Proof.Machine.execPermPc2 s

end Sys2Proof.Machine
end

