-- ==== Sys2Proof/Machine/Transact.lean ====
section
/-! DEFINITION. Transact: what one host transaction does (spec/20_memory.md rules R60 to R64). -/

namespace Sys2Proof.Machine

/-- `CMD(c)` (R64): the word is decoded (R87) and the command's meaning is carried out; an illegal word raises
ILLEGAL_CMD (R90, R208). Both stand under the frame `command`, so under HALT nothing happens (R63). -/
def runCmd (c : CmdWord) (s : State) : Host.Outcome State Fault Refusal :=
  match decode c with
  | some i => exec i s
  | none => command s fun e => e.raise .illegalCmd

/-- One transaction (R8), on a state whose `response` is empty: only READ returns a value (R60 to R64). -/
def transact (t : Transaction) (s : State) : Host.Outcome State Fault Refusal :=
  match t with
  | .reset => .next { s with engine := Engine.reset }
  | .write id v => .next { s with engine := s.engine.hostWrite id v }
  | .read id => .next { s with response := some (s.engine.hostRead id) }
  | .cmd c => runCmd c s

/-- The engine takes the first pending transaction (R76); with none it does nothing, since "the engine never acts on its
own" (R7; DESIGN CHOICE, notes/assumptions/2.md). -/
def takeTransaction (s : State) : Host.Outcome State Fault Refusal :=
  match s.pending with
  | [] => .next s
  | t :: rest => transact t { s with pending := rest, response := none }

end Sys2Proof.Machine
end

