-- ==== Sys2Proof/Machine/Step.lean ====
section
/-! DEFINITION. Step: one step of the machine is one host transaction (R8), and where the host's check places a command. -/

namespace Sys2Proof.Machine

/-- One step: the next pending transaction, whole and atomic (R8, R72, R76). -/
def step (s : State) : Host.Outcome State Fault Refusal := takeTransaction s

/-- `s` with the transaction `CMD(w)` issued next. EP-CORE fetches nothing: a command reaches it as the operand of a CMD
transaction (R23), so this is how a command word comes to run (notes/assumptions/1.md). -/
def State.withFetchWord (s : State) (nbits w : Nat) : State :=
  { s with pending := .cmd (BitVec.ofNat 8 (w % 2 ^ nbits)) :: s.pending }

end Sys2Proof.Machine
end

