-- ==== Sys2Proof/Machine/HostNotation.lean ====
section
/-! DEFINITION. HostNotation: the spec's own notation for host programs and its pseudo-instructions (spec/30_encoding.md
rules R92 and R93). None of it is a command of the engine: each line stands for transactions the host issues. -/

namespace Sys2Proof.Machine

/-- A host program: the lines of rule R92, the pseudo-instructions of rule R93 and sequencing. -/
inductive HostProg where
  /-- no line -/
  | skip
  /-- `RESET` -/
  | reset
  /-- `WR <reg>, <value>` -/
  | wr (id : RegId) (v : Word)
  /-- `RD <reg>` -/
  | rd (id : RegId)
  /-- `<MNEMONIC>` -/
  | run (i : Instr)
  /-- `CMD <value>` -/
  | cmd (c : CmdWord)
  /-- `MOV <dst>, <src>` -/
  | mov (dst src : RegId)
  /-- `LDTBL t_0, …, t_(m-1)` -/
  | ldtbl (ts : List Word)
  /-- `LDSRC n, <value>` -/
  | ldsrc (n v : Word)
  /-- one line after another -/
  | seq (p q : HostProg)
  /-- `REPEAT k … END` -/
  | rep (k : Nat) (body : HostProg)
  /-- `IFERR … END` -/
  | ifErr (body : HostProg)
deriving DecidableEq, Repr

/-- The next state of an outcome handed on; a stop stays a stop. -/
def andThen (o : Host.Outcome State Fault Refusal) (f : State → Host.Outcome State Fault Refusal) :
    Host.Outcome State Fault Refusal :=
  match o with
  | .next s => f s
  | .fault r => .fault r
  | .refused r => .refused r

/-- The host issues one transaction and the engine takes it before any other. -/
def issue (t : Transaction) (s : State) : Host.Outcome State Fault Refusal :=
  step { s with pending := t :: s.pending }

/-- Several transactions, in order. -/
def issueAll : List Transaction → State → Host.Outcome State Fault Refusal
  | [], s => .next s
  | t :: ts, s => andThen (issue t s) (issueAll ts)

/-- `WR PERM_TBL[i], t_i` for the entries from position `i` on, in order (R93, `LDTBL`). -/
def tableWrites (i : Nat) : List Word → List Transaction
  | [] => []
  | t :: ts => .write (BitVec.ofNat 8 (0x40 + i)) t :: tableWrites (i + 1) ts

/-- `f` done `k` times (R93, `REPEAT`). -/
def repeatOutcome (f : State → Host.Outcome State Fault Refusal) : Nat → State → Host.Outcome State Fault Refusal
  | 0, s => .next s
  | k + 1, s => andThen (f s) (repeatOutcome f k)

/-- What a host program does: its expansion into transactions (R92, R93), each taken by the engine in turn. -/
def HostProg.perform : HostProg → State → Host.Outcome State Fault Refusal
  | .skip, s => .next s
  | .reset, s => issue .reset s
  | .wr id v, s => issue (.write id v) s
  | .rd id, s => issue (.read id) s
  | .run i, s => issue (.cmd (encode i)) s
  | .cmd c, s => issue (.cmd c) s
  | .mov dst src, s => andThen (issue (.read src) s) fun t => issue (.write dst (t.response.getD 0)) t
  | .ldtbl ts, s => issueAll (tableWrites 0 ts ++ [.write 0x22#8 (BitVec.ofNat 128 ts.length)]) s
  | .ldsrc n v, s => issueAll [.write 0x21#8 n, .write 0x20#8 v] s
  | .seq p q, s => andThen (p.perform s) q.perform
  | .rep k body, s => repeatOutcome body.perform k s
  | .ifErr body, s => andThen (issue (.read 0x30#8) s) fun t =>
      if (t.response.getD 0).getLsbD 0 then body.perform t else .next t

end Sys2Proof.Machine
end

