-- ==== Sys2Proof/Safety.lean ====
section
/-! DEFINITION. Safety: the invariants of the engine that the spec states, and what counts as a clean result. -/

namespace Sys2Proof.Machine

/-- The invariants of STATUS that rule R42 states: bits 7:5 read as 0, ERRCODE 5 to 7 never occur, `ERR = 0` implies
`ERRCODE = 0` and `HALT = 0`, and `HALT = 1` implies `ERR = 1`. -/
def statusInv (st : BitVec 8) : Prop :=
  statusReserved st = 0 ∧ (statusErrcode st).toNat ≤ 4 ∧
    (statusErr st = false → statusErrcode st = 0 ∧ statusHalt st = false) ∧
    (statusHalt st = true → statusErr st = true)

/-- The result of the permutation engine is a string of `PERM_OLEN` bits with zeros above it, at most `PERM_MAX` long
(R37, R68; entry W8 of spec/93_implementation_defined.md). -/
def permOutInv (e : Engine) : Prop :=
  e.permOlen.toNat ≤ Config.permMax ∧ e.permOut.toNat < 2 ^ e.permOlen.toNat

/-- The invariant of the engine: STATUS is legal and the permutation result is a string. -/
def Engine.Inv (e : Engine) : Prop := statusInv e.status ∧ permOutInv e

/-- A run ended cleanly when STATUS is 0: no error was raised since the last clear and the engine is not halted (R220:
only then is an output register the result of the last command). -/
def State.clean (s : State) : Bool := s.engine.status == 0

/-- The unmapped ids, as rule R21 lists them: 0x03 to 0x07, 0x0B to 0x0F, 0x18 to 0x1F, 0x25 to 0x2F, 0x31 to 0x3F and 0x80 to
0xFF. -/
def unmappedId (id : RegId) : Bool :=
  let n := id.toNat
  (0x03 ≤ n && n ≤ 0x07) || (0x0B ≤ n && n ≤ 0x0F) || (0x18 ≤ n && n ≤ 0x1F) || (0x25 ≤ n && n ≤ 0x2F)
    || (0x31 ≤ n && n ≤ 0x3F) || 0x80 ≤ n

/-- The illegal command words, as rule R90 lists them: 0x02 to 0x0F, 0x15 to 0x1F, 0x21 to 0x2F, 0x34 to 0x3F, 0x46 to 0x4F and
0x50 to 0xFF. -/
def illegalWord (c : CmdWord) : Bool :=
  let n := c.toNat
  (0x02 ≤ n && n ≤ 0x0F) || (0x15 ≤ n && n ≤ 0x1F) || (0x21 ≤ n && n ≤ 0x2F) || (0x34 ≤ n && n ≤ 0x3F)
    || (0x46 ≤ n && n ≤ 0x4F) || 0x50 ≤ n

/-- One row of the register table of rule R21: id, register, width, and whether the host may write it. -/
structure RegRow where
  id : RegId
  reg : Reg
  width : Nat
  rw : Bool
deriving DecidableEq, Repr

/-- The rows of rule R21 other than the table RAM. -/
def regRows : List RegRow :=
  [⟨0x00, .aesS, 128, true⟩, ⟨0x01, .aesK, 128, true⟩, ⟨0x02, .aesO, 128, false⟩,
   ⟨0x08, .gfA, 8, true⟩, ⟨0x09, .gfB, 8, true⟩, ⟨0x0A, .gfP, 8, false⟩,
   ⟨0x10, .desR, 32, true⟩, ⟨0x11, .desRk, 48, true⟩, ⟨0x12, .desF, 32, false⟩, ⟨0x13, .desKey, 56, true⟩,
   ⟨0x14, .desK1, 48, false⟩, ⟨0x15, .desK2, 48, false⟩, ⟨0x16, .desPt, 64, true⟩, ⟨0x17, .desCt, 64, false⟩,
   ⟨0x20, .permSrc, 64, true⟩, ⟨0x21, .permSrclen, 7, true⟩, ⟨0x22, .permTlen, 7, true⟩,
   ⟨0x23, .permOut, 64, false⟩, ⟨0x24, .permOlen, 7, false⟩, ⟨0x30, .status, 8, false⟩]

/-- One row of the table of rule R147: command, required source length, table. -/
structure RomRow where
  instr : Instr
  nReq : Nat
  table : List Nat
deriving DecidableEq, Repr

/-- The five ROM-table commands (R147). -/
def romRows : List RomRow :=
  [⟨.permIp, 64, tIP⟩, ⟨.permFp, 64, tFP⟩, ⟨.permE, 32, tE⟩, ⟨.permP, 32, tP⟩, ⟨.permPc2, 56, tPC2⟩]

/-- The registers a command writes when it succeeds (R88, column "writes"). -/
def writeRegs : Instr → List Reg
  | .nop => []
  | .clrerr => [.status]
  | .subbytes => [.aesO] | .shiftrows => [.aesO] | .mixcols => [.aesO] | .addrkey => [.aesO] | .aesround => [.aesO]
  | .gfmul => [.gfP]
  | .desf => [.desF] | .dessbox => [.desF]
  | .desks => [.desK1, .desK2]
  | .des2enc => [.desCt, .desK1, .desK2]
  | .permUsr => [.permOut, .permOlen]
  | .permIp => [.permOut, .permOlen] | .permFp => [.permOut, .permOlen] | .permE => [.permOut, .permOlen]
  | .permP => [.permOut, .permOlen] | .permPc2 => [.permOut, .permOlen]

/-- The registers a command reads in the engine `e` (R88, column "reads"); of the table RAM, PERM.USR reads the entries below
`PERM_TLEN` only (R146). -/
def readRegs (e : Engine) : Instr → List Reg
  | .nop => []
  | .clrerr => [.status]
  | .subbytes => [.aesS] | .shiftrows => [.aesS] | .mixcols => [.aesS]
  | .addrkey => [.aesS, .aesK] | .aesround => [.aesS, .aesK]
  | .gfmul => [.gfA, .gfB]
  | .desf => [.desR, .desRk] | .dessbox => [.desRk]
  | .desks => [.desKey]
  | .des2enc => [.desPt, .desKey]
  | .permUsr =>
    [.permSrc, .permSrclen, .permTlen] ++ ((List.finRange 64).filter fun i => decide (i.val < e.permTlen.toNat)).map .permTbl
  | .permIp => [.permSrc, .permSrclen] | .permFp => [.permSrc, .permSrclen] | .permE => [.permSrc, .permSrclen]
  | .permP => [.permSrc, .permSrclen] | .permPc2 => [.permSrc, .permSrclen]

/-- The carry-less product of two bytes as polynomials over GF(2), of degree at most 14 (R105): what rule R106 is compared
with. -/
def polyMul (a b : Byte) : BitVec 16 :=
  (List.range 8).foldl (fun acc i => if b.getLsbD i then acc ^^^ (a.setWidth 16 <<< i) else acc) 0

/-- The remainder of a polynomial modulo x^8+x^4+x^3+x+1 (0x11B), the degrees above 7 removed from the highest down. -/
def polyMod (x : BitVec 16) : Byte :=
  ((List.range 8).foldl
    (fun acc j => if acc.getLsbD (15 - j) then acc ^^^ (0x11B#16 <<< (7 - j)) else acc) x).setWidth 8

/-- What a host that builds the inverse of DES2ENC does (R193; spec/95_test_vectors.md section 2.6): PERM.IP, two Feistel
rounds using f with K2 first and K1 second, the swap and PERM.FP. It is no function of EP-CORE. -/
def des2HostDecrypt (ct key56 : BitString) : BitString :=
  let ip := permute ct tIP
  let l0 := substr ip 0 31
  let r0 := substr ip 32 63
  let ks := keySchedule key56
  let r1 := xorStr l0 (feistelF r0 ks.2)
  let r2 := xorStr r0 (feistelF r1 ks.1)
  permute (r2 ++ r1) tFP

end Sys2Proof.Machine
end

