-- ==== Sys2Proof/Certificates/Slice0/Obligations.lean ====
section
/-! DEFINITION. Obligations: what is to be proved of the model. Each docstring names the rule of spec/ it formalises; a clause
that the spec itself marks as derived, or that rests on a choice of the model, says so. Throughout, the transaction a step takes
stands at the head of `pending`, the others stay pending behind it, and the value it returns stands in `response`: where these
stand is the model's choice (notes/assumptions/1.md), what the transaction does and returns is the cited rule's. -/

open Sys2Proof Sys2Proof.Machine

/-! ## Reset, transactions, the register id space -/

/-- R60: RESET, from any state including HALT, puts every register at 0 (the state of R55) and returns nothing. -/
def Obligations.ResetZeroesEveryRegister : Prop :=
  ∀ (e : Engine) (rest : List Transaction) (resp : Option Word),
    ∃ z : Engine,
      step { engine := e, pending := .reset :: rest, response := resp }
        = .next { engine := z, pending := rest, response := none } ∧
      ∀ r : Reg, z.get r = 0

/-- R236 and R55: the machine after reset holds 0 in every register and in STATUS; that no transaction is pending and nothing
was returned is the model's own (notes/assumptions/1.md). -/
def Obligations.ResetStateIsAllZero : Prop :=
  (∀ r : Reg, State.reset.engine.get r = 0) ∧ State.reset.engine.halted = false ∧
    State.reset.pending = [] ∧ State.reset.response = none

/-- R62: READ returns the register zero-extended when the id is mapped and 0 when it is not; it changes no state, raises nothing
and works under HALT; the same READ again returns the same value. -/
def Obligations.ReadReturnsTheRegisterAndChangesNothing : Prop :=
  (∀ (e : Engine) (rest : List Transaction) (resp : Option Word) (id : RegId),
    step { engine := e, pending := .read id :: rest, response := resp }
      = .next { engine := e, pending := rest, response := some (e.hostRead id) }) ∧
  (∀ e : Engine,
    e.hostRead 0x00 = e.aesS ∧ e.hostRead 0x01 = e.aesK ∧ e.hostRead 0x02 = e.aesO ∧
    e.hostRead 0x08 = e.gfA.setWidth 128 ∧ e.hostRead 0x09 = e.gfB.setWidth 128 ∧
    e.hostRead 0x0A = e.gfP.setWidth 128 ∧
    e.hostRead 0x10 = e.desR.setWidth 128 ∧ e.hostRead 0x11 = e.desRk.setWidth 128 ∧
    e.hostRead 0x12 = e.desF.setWidth 128 ∧ e.hostRead 0x13 = e.desKey.setWidth 128 ∧
    e.hostRead 0x14 = e.desK1.setWidth 128 ∧ e.hostRead 0x15 = e.desK2.setWidth 128 ∧
    e.hostRead 0x16 = e.desPt.setWidth 128 ∧ e.hostRead 0x17 = e.desCt.setWidth 128 ∧
    e.hostRead 0x20 = e.permSrc.setWidth 128 ∧ e.hostRead 0x21 = e.permSrclen.setWidth 128 ∧
    e.hostRead 0x22 = e.permTlen.setWidth 128 ∧ e.hostRead 0x23 = e.permOut.setWidth 128 ∧
    e.hostRead 0x24 = e.permOlen.setWidth 128 ∧ e.hostRead 0x30 = e.status.setWidth 128 ∧
    (∀ i : Fin 64, e.hostRead (BitVec.ofNat 8 (0x40 + i.val)) = (e.permTbl[i.val]).setWidth 128) ∧
    ∀ id : RegId, unmappedId id = true → e.hostRead id = 0) ∧
  (∀ (e : Engine) (rest : List Transaction) (resp : Option Word) (id : RegId), ∃ s1 s2 : State,
    step { engine := e, pending := .read id :: .read id :: rest, response := resp } = .next s1 ∧
    step s1 = .next s2 ∧ s2.response = s1.response)

/-- R61: WRITE, its tests in their order. Under HALT nothing happens; an unmapped id or a host-RO register raises BAD_ACCESS; a
value that does not fit raises LENGTH; otherwise exactly the named register changes (STATUS is none of the host-RW
registers). A failing WRITE changes no register but STATUS. -/
def Obligations.WriteStoresOneRegisterOrRaises : Prop :=
  (∀ (e : Engine) (rest : List Transaction) (resp : Option Word) (id : RegId) (v : Word),
    step { engine := e, pending := .write id v :: rest, response := resp }
      = .next { engine := e.hostWrite id v, pending := rest, response := none }) ∧
  (∀ (e : Engine) (id : RegId) (v : Word), e.halted = true → e.hostWrite id v = e) ∧
  (∀ (e : Engine) (id : RegId) (v : Word), e.halted = false →
    (Reg.ofId id = none ∨ ∃ r, Reg.ofId id = some r ∧ r.hostWritable = false) →
    e.hostWrite id v = e.raise .badAccess) ∧
  (∀ (e : Engine) (id : RegId) (v : Word) (r : Reg), e.halted = false → Reg.ofId id = some r →
    r.hostWritable = true → 2 ^ r.width ≤ v.toNat → e.hostWrite id v = e.raise .length) ∧
  (∀ (e : Engine) (id : RegId) (v : Word) (r : Reg), e.halted = false → Reg.ofId id = some r →
    r.hostWritable = true → v.toNat < 2 ^ r.width →
    (e.hostWrite id v).get r = v ∧ ∀ r', r' ≠ r → (e.hostWrite id v).get r' = e.get r') ∧
  (∀ (e : Engine) (x : EpError) (r : Reg), r ≠ .status → (e.raise x).get r = e.get r)

/-- R21: which register each id names, its width and what the host may do with it, for the 20 single registers, the 64 entries of
the table RAM and the unmapped ids. -/
def Obligations.RegisterMapFollowsTheTable : Prop :=
  (∀ row ∈ regRows, Reg.ofId row.id = some row.reg ∧ row.reg.id = row.id ∧ row.reg.width = row.width ∧
    row.reg.hostWritable = row.rw) ∧
  (∀ i : Fin 64, Reg.ofId (BitVec.ofNat 8 (0x40 + i.val)) = some (.permTbl i) ∧ (Reg.permTbl i).width = 7 ∧
    (Reg.permTbl i).hostWritable = true) ∧
  ∀ id : RegId, unmappedId id = true ↔ Reg.ofId id = none

/-- R20: the registers of R21, the table RAM and STATUS are the whole state of the engine. -/
def Obligations.RegistersAreTheWholeEngine : Prop :=
  ∀ e e' : Engine, (∀ r : Reg, e.get r = e'.get r) → e = e'

/-- R63: under HALT every WRITE and every CMD is ignored, STATUS included; READ works and RESET works. No command has an effect of
its own there. -/
def Obligations.HaltIgnoresWritesAndCommands : Prop :=
  (∀ (e : Engine) (rest : List Transaction) (resp : Option Word) (id : RegId) (v : Word) (c : CmdWord),
    e.halted = true →
    step { engine := e, pending := .write id v :: rest, response := resp }
      = .next { engine := e, pending := rest, response := none } ∧
    step { engine := e, pending := .cmd c :: rest, response := resp }
      = .next { engine := e, pending := rest, response := none } ∧
    step { engine := e, pending := .read id :: rest, response := resp }
      = .next { engine := e, pending := rest, response := some (e.hostRead id) } ∧
    step { engine := e, pending := .reset :: rest, response := resp }
      = .next { engine := Engine.reset, pending := rest, response := none }) ∧
  ∀ (i : Instr) (s : State), s.engine.halted = true → exec i s = .next s

/-! ## Decoding -/

/-- R64 and R87: a step whose transaction is CMD(c) is `exec` of the command c decodes to. That the transaction is taken from
`pending` and `response` is empty, and the second clause, that a word placed by `withFetchWord` is the next command, are the
model's choice (notes/assumptions/1.md), no rule of the spec. -/
def Obligations.StepRunsTheDecodedCommand : Prop :=
  (∀ (e : Engine) (rest : List Transaction) (resp : Option Word) (c : CmdWord) (i : Instr), decode c = some i →
    step { engine := e, pending := .cmd c :: rest, response := resp }
      = exec i { engine := e, pending := rest, response := none }) ∧
  ∀ (s : State) (i : Instr), step (s.withFetchWord 8 (encode i).toNat) = exec i { s with response := none }

/-- R87, R88: the word of each of the 18 rows, written out, decodes to its command. -/
def Obligations.WordsOfTheTableDecode : Prop :=
  decode 0b00000000#8 = some .nop ∧ decode 0b00000001#8 = some .clrerr ∧
  decode 0b00010000#8 = some .subbytes ∧ decode 0b00010001#8 = some .shiftrows ∧
  decode 0b00010010#8 = some .mixcols ∧ decode 0b00010011#8 = some .addrkey ∧
  decode 0b00010100#8 = some .aesround ∧ decode 0b00100000#8 = some .gfmul ∧
  decode 0b00110000#8 = some .desf ∧ decode 0b00110001#8 = some .dessbox ∧
  decode 0b00110010#8 = some .desks ∧ decode 0b00110011#8 = some .des2enc ∧
  decode 0b01000000#8 = some .permUsr ∧ decode 0b01000001#8 = some .permIp ∧
  decode 0b01000010#8 = some .permFp ∧ decode 0b01000011#8 = some .permE ∧
  decode 0b01000100#8 = some .permP ∧ decode 0b01000101#8 = some .permPc2

/-- R90 and R208: the 238 words R90 lists are exactly the illegal ones; each raises ILLEGAL_CMD, code 1, by the error entry of R215,
and changes no register but STATUS. NOP is a defined command. -/
def Obligations.IllegalWordsRaiseIllegalCmd : Prop :=
  (∀ c : CmdWord, illegalWord c = true ↔ decode c = none) ∧
  ((List.range 256).filter fun n => illegalWord (BitVec.ofNat 8 n)).length = 238 ∧
  (∀ (e : Engine) (rest : List Transaction) (resp : Option Word) (c : CmdWord), e.halted = false →
    illegalWord c = true →
    step { engine := e, pending := .cmd c :: rest, response := resp }
      = .next { engine := e.raise .illegalCmd, pending := rest, response := none } ∧
    ∀ r : Reg, r ≠ .status → (e.raise .illegalCmd).get r = e.get r) ∧
  EpError.illegalCmd.code = 1 ∧ decode 0x00#8 = some .nop

/-- R85, R87: decoding the word of any well-formed command gives the command back, and a word that decodes to a command is that
command's word. -/
def Obligations.DecodeAndEncodeAgree : Prop :=
  (∀ i : Instr, i.wf = true → decode (encode i) = some i) ∧
  ∀ (c : CmdWord) (i : Instr), decode c = some i → encode i = c

/-! ## STATUS and errors -/

/-- R42 (layout) and R214: STATUS is bits 7:5 reserved, 4:2 ERRCODE, 1 HALT, 0 ERR, and the line ERR_O equals ERR. -/
def Obligations.StatusFieldsSitAtTheirBits : Prop :=
  ∀ e : Engine,
    e.status = statusReserved e.status ++ e.errcode ++ BitVec.ofBool e.halted ++ BitVec.ofBool e.err ∧
    e.errO = e.err

/-- R215: the error entry. ERRCODE takes the code if ERR was 0 and is kept otherwise, ERR becomes 1, TABLE_INDEX sets HALT and the
others leave it, and every other register and the reserved bits keep their value. The codes are those of R206. -/
def Obligations.ErrorEntryRecordsTheFirstError : Prop :=
  (∀ (e : Engine) (x : EpError),
    (e.raise x).err = true ∧
    (e.err = false → (e.raise x).errcode = x.code) ∧
    (e.err = true → (e.raise x).errcode = e.errcode) ∧
    (x = .tableIndex → (e.raise x).halted = true) ∧
    (x ≠ .tableIndex → (e.raise x).halted = e.halted) ∧
    statusReserved (e.raise x).status = statusReserved e.status ∧
    ∀ r : Reg, r ≠ .status → (e.raise x).get r = e.get r) ∧
  EpError.illegalCmd.code = 1 ∧ EpError.badAccess.code = 2 ∧ EpError.length.code = 3 ∧ EpError.tableIndex.code = 4

/-- R217 (derived by the spec from R215): with ERR already 1 a recoverable error changes nothing at all, and TABLE_INDEX keeps the
first code and sets HALT; STATUS 0x0D becomes 0x0F. -/
def Obligations.LaterErrorsKeepTheFirstCode : Prop :=
  (∀ (e : Engine) (x : EpError), e.err = true → x ≠ .tableIndex → e.raise x = e) ∧
  (∀ e : Engine, e.err = true →
    (e.raise .tableIndex).errcode = e.errcode ∧ (e.raise .tableIndex).halted = true ∧ (e.raise .tableIndex).err = true) ∧
  ∀ e : Engine, e.status = 0x0D → (e.raise .tableIndex).status = 0x0F

/-- R201: CLRERR zeroes ERR and ERRCODE and changes nothing else; with ERR already 0 (in a STATUS that meets R42's invariants) it
changes nothing; under HALT it is ignored. STATUS 0x0D becomes 0x00, 0x13 stays. -/
def Obligations.ClrerrClearsTheErrorOnly : Prop :=
  (∀ s : State, s.engine.halted = false → ∃ st : BitVec 8,
    exec .clrerr s = .next { s with engine := { s.engine with status := st } } ∧
    statusErr st = false ∧ statusErrcode st = 0 ∧ statusHalt st = false ∧
    statusReserved st = statusReserved s.engine.status) ∧
  (∀ s : State, statusInv s.engine.status → s.engine.err = false → exec .clrerr s = .next s) ∧
  (∀ s : State, s.engine.halted = true → exec .clrerr s = .next s) ∧
  (∀ s : State, s.engine.status = 0x0D →
    exec .clrerr s = .next { s with engine := { s.engine with status := 0x00 } }) ∧
  (∀ s : State, s.engine.status = 0x13 → exec .clrerr s = .next s) ∧
  encode .clrerr = 0x01#8

/-- R200: the state after NOP equals the state before, STATUS included, under HALT too; its word 0x00 is a defined command. -/
def Obligations.NopChangesNothing : Prop :=
  (∀ s : State, exec .nop s = .next s) ∧ encode .nop = 0x00#8 ∧ decode 0x00#8 = some .nop

/-- R218: a recoverable error raised in an engine with STATUS 0 is undone by CLRERR, which gives back the engine from before the
error; a fatal one stays. -/
def Obligations.ClrerrUndoesARecoverableError : Prop :=
  (∀ (s : State) (x : EpError), s.engine.status = 0 → x ≠ .tableIndex →
    exec .clrerr { s with engine := s.engine.raise x } = .next s) ∧
  ∀ s : State, exec .clrerr { s with engine := s.engine.raise .tableIndex }
    = .next { s with engine := s.engine.raise .tableIndex }

/-! ## GF(2^8) multiplier -/

/-- R107: GFMUL writes the product into GF_P and changes nothing else, STATUS and the operands included; the corner cases and the
trace of the example are R107's. -/
def Obligations.GfmulWritesTheProduct : Prop :=
  (∀ s : State, s.engine.halted = false →
    exec .gfmul s
      = .next { s with engine := { s.engine with gfP := gfMul s.engine.gfA s.engine.gfB } }) ∧
  encode .gfmul = 0x20#8 ∧
  (∀ a : Byte, gfMul a 0x00 = 0x00 ∧ gfMul a 0x01 = a ∧ gfMul 0x00 a = 0x00) ∧
  gfMul 0xFF 0xFF = 0x13 ∧ gfMul 0x80 0x02 = 0x1B ∧ gfMul 0x57 0x13 = 0xFE ∧
  ((List.range 8).map fun k => (gfLoop (k + 1) { p := 0, a := 0x57, b := 0x13 }).p)
    = [0x57, 0xF9, 0xF9, 0xF9, 0xFE, 0xFE, 0xFE, 0xFE] ∧
  ((List.range 8).map fun k => (gfLoop (k + 1) { p := 0, a := 0x57, b := 0x13 }).a)
    = [0xAE, 0x47, 0x8E, 0x07, 0x0E, 0x1C, 0x38, 0x70]

/-- R106, its derived sentence: the result equals the product of the two polynomials reduced modulo x^8+x^4+x^3+x+1. -/
def Obligations.GfMulIsThePolynomialProduct : Prop :=
  ∀ a b : Byte, gfMul a b = polyMod (polyMul a b)

/-- R108, the laws the document states: commutative, 0x01 is the identity, 0x00 gives 0x00. -/
def Obligations.GfMulCommutes : Prop :=
  ∀ a b : Byte, gfMul a b = gfMul b a ∧ gfMul a 0x01 = a ∧ gfMul a 0x00 = 0x00

/-- R108, the laws the spec derives: associative, distributive over exclusive-or, no zero divisors, exactly one inverse for every
non-zero element; the three inverse pairs. -/
def Obligations.GfMulIsFieldMultiplication : Prop :=
  (∀ a b c : Byte, gfMul (gfMul a b) c = gfMul a (gfMul b c)) ∧
  (∀ a b c : Byte, gfMul a (b ^^^ c) = gfMul a b ^^^ gfMul a c) ∧
  (∀ a b : Byte, a ≠ 0 → gfMul a b = 0 → b = 0) ∧
  (∀ a : Byte, a ≠ 0 → ∃ b : Byte, gfMul a b = 0x01 ∧ ∀ c : Byte, gfMul a c = 0x01 → c = b) ∧
  gfMul 0x53 0xCA = 0x01 ∧ gfMul 0x02 0x8D = 0x01 ∧ gfMul 0x03 0xF6 = 0x01

/-! ## AES round pipeline -/

/-- R16 and R67: byte b_i is bits 127-8i to 120-8i and stands at row i mod 4, column i div 4; taking a block apart and packing it
are inverses. -/
def Obligations.BlockLayoutIsColumnMajor : Prop :=
  (∀ v : BitVec 128, pack (bytes v) = v) ∧ (∀ m : StateMatrix, bytes (pack m) = m) ∧
  ∀ (v : BitVec 128) (r c : Fin 4), cell (bytes v) r c = v.extractLsb' (120 - 8 * (r.val + 4 * c.val)) 8

/-- R120: SUBBYTES replaces each byte of AES_S by its S-box entry into AES_O and changes nothing else; the corner cases and the
example are R120's. -/
def Obligations.SubBytesReplacesEveryByte : Prop :=
  (∀ s : State, s.engine.halted = false → ∃ v : BitVec 128,
    exec .subbytes s = .next { s with engine := { s.engine with aesO := v } } ∧
    v = pack (subBytes (bytes s.engine.aesS)) ∧
    ∀ i : Nat, i < 16 → v.extractLsb' (120 - 8 * i) 8 = aesSbox (s.engine.aesS.extractLsb' (120 - 8 * i) 8)) ∧
  encode .subbytes = 0x10#8 ∧
  pack (subBytes (bytes 0)) = 0x63636363636363636363636363636363#128 ∧
  (∀ (m : StateMatrix) (i j : Fin 16), m[i.val] = m[j.val] → (subBytes m)[i.val] = (subBytes m)[j.val]) ∧
  pack (subBytes (bytes 0x193DE3BEA0F4E22B9AC68D2AE9F84808#128)) = 0xD42711AEE0BF98F1B8B45DE51E415230#128

/-- R117 and R119 (derived by the spec from the table of R118): the S-box is a bijection without a fixed point and without a
complemented one; the reading examples of R118. -/
def Obligations.AesSboxIsABijection : Prop :=
  (∀ y : Byte, ∃ x : Byte, aesSbox x = y) ∧ (∀ x y : Byte, aesSbox x = aesSbox y → x = y) ∧
  (∀ x : Byte, aesSbox x ≠ x ∧ aesSbox x ≠ x ^^^ 0xFF) ∧
  aesSbox 0x53 = 0xED ∧ aesSbox 0x00 = 0x63 ∧ aesSbox 0xFF = 0x16

/-- R121: SHIFTROWS writes into AES_O the matrix whose row r is row r of AES_S cyclically shifted left by r positions,
S'(r, c) = S(r, (c + r) mod 4), and changes nothing else. -/
def Obligations.ShiftRowsRotatesRowRLeftByR : Prop :=
  ∀ s : State, s.engine.halted = false → ∃ v : BitVec 128,
    exec .shiftrows s = .next { s with engine := { s.engine with aesO := v } } ∧
    ∀ r c : Fin 4, cell (bytes v) r c = cell (bytes s.engine.aesS) r (c + r)

/-- R123, its clauses about the function: it only moves bytes (equal bytes stay as they are), four applications give the input
back (derived by the spec from R121), and the example. -/
def Obligations.ShiftRowsFourTimesIsTheIdentity : Prop :=
  (∀ m : StateMatrix, shiftRows (shiftRows (shiftRows (shiftRows m))) = m) ∧
  (∀ x : Byte, shiftRows (Vector.replicate 16 x) = Vector.replicate 16 x) ∧
  (∀ (m : StateMatrix) (x : Byte), (shiftRows m).toList.count x = m.toList.count x) ∧
  pack (shiftRows (bytes 0x000102030405060708090A0B0C0D0E0F#128)) = 0x00050A0F04090E03080D02070C01060B#128

/-- R125: MIXCOLS writes into AES_O, column by column, the MixColumns matrix applied under GF(2^8) arithmetic to the same column of
AES_S, and changes nothing else (the GF registers included). -/
def Obligations.MixColumnsMultipliesEveryColumn : Prop :=
  ∀ s : State, s.engine.halted = false → ∃ v : BitVec 128,
    exec .mixcols s = .next { s with engine := { s.engine with aesO := v } } ∧
    ∀ row c : Fin 4, cell (bytes v) row c
      = gfMul (mixcolM row.val 0) (cell (bytes s.engine.aesS) 0 c)
        ^^^ gfMul (mixcolM row.val 1) (cell (bytes s.engine.aesS) 1 c)
        ^^^ gfMul (mixcolM row.val 2) (cell (bytes s.engine.aesS) 2 c)
        ^^^ gfMul (mixcolM row.val 3) (cell (bytes s.engine.aesS) 3 c)

/-- R109 and R126 (derived by the spec from R106, R124 and R125): the constant multiples 02 and 03 in closed form, the four output
bytes of a column by them, and linearity over exclusive-or (R127). -/
def Obligations.MixColumnsClosedForm : Prop :=
  (∀ x : Byte, gfMul 0x01 x = x ∧ gfMul 0x02 x = (x <<< 1) ^^^ (if x.getLsbD 7 then 0x1B else 0x00) ∧
    gfMul 0x03 x = gfMul 0x02 x ^^^ x) ∧
  (∀ (m : StateMatrix) (c : Fin 4),
    cell (mixColumns m) 0 c = gfMul 0x02 (cell m 0 c) ^^^ gfMul 0x03 (cell m 1 c) ^^^ cell m 2 c ^^^ cell m 3 c ∧
    cell (mixColumns m) 1 c = cell m 0 c ^^^ gfMul 0x02 (cell m 1 c) ^^^ gfMul 0x03 (cell m 2 c) ^^^ cell m 3 c ∧
    cell (mixColumns m) 2 c = cell m 0 c ^^^ cell m 1 c ^^^ gfMul 0x02 (cell m 2 c) ^^^ gfMul 0x03 (cell m 3 c) ∧
    cell (mixColumns m) 3 c = gfMul 0x03 (cell m 0 c) ^^^ cell m 1 c ^^^ cell m 2 c ^^^ gfMul 0x02 (cell m 3 c)) ∧
  ∀ m k : StateMatrix, mixColumns (addRoundKey m k) = addRoundKey (mixColumns m) (mixColumns k)

/-- R130 and R131: ADDRKEY writes AES_S exclusive-or AES_K into AES_O and changes nothing else; this is the byte-wise
exclusive-or; the corner cases and the example are R131's. -/
def Obligations.AddRoundKeyXorsTheKey : Prop :=
  (∀ s : State, s.engine.halted = false →
    exec .addrkey s = .next { s with engine := { s.engine with aesO := s.engine.aesS ^^^ s.engine.aesK } }) ∧
  (∀ v k : BitVec 128, v ^^^ k = pack (addRoundKey (bytes v) (bytes k)) ∧
    ∀ i : Nat, i < 16 → (v ^^^ k).extractLsb' (120 - 8 * i) 8
      = v.extractLsb' (120 - 8 * i) 8 ^^^ k.extractLsb' (120 - 8 * i) 8) ∧
  encode .addrkey = 0x13#8 ∧
  (∀ v k : BitVec 128, v ^^^ 0 = v ∧ v ^^^ v = 0 ∧ (v ^^^ k) ^^^ k = v) ∧
  0x046681E5E0CB199A48F8D37A2806264C#128 ^^^ 0xA0FAFE1788542CB123A339392A6C7605#128
    = 0xA49C7FF2689F352B6B5BEA43026A5049#128

/-- R134 and R135: AESROUND writes into AES_O the four transforms composed in fixed order, and changes nothing else; the all-zero
corner and the example with its three inner values are R135's. -/
def Obligations.AesRoundComposesTheFourStages : Prop :=
  (∀ s : State, s.engine.halted = false → ∃ v : BitVec 128,
    exec .aesround s = .next { s with engine := { s.engine with aesO := v } } ∧
    v = pack (mixColumns (shiftRows (subBytes (bytes s.engine.aesS)))) ^^^ s.engine.aesK ∧
    bytes v = addRoundKey (mixColumns (shiftRows (subBytes (bytes s.engine.aesS)))) (bytes s.engine.aesK) ∧
    bytes v = aesRound (bytes s.engine.aesS) (bytes s.engine.aesK)) ∧
  encode .aesround = 0x14#8 ∧
  pack (aesRound (bytes 0) (bytes 0)) = 0x63636363636363636363636363636363#128 ∧
  pack (subBytes (bytes 0x193DE3BEA0F4E22B9AC68D2AE9F84808#128)) = 0xD42711AEE0BF98F1B8B45DE51E415230#128 ∧
  pack (shiftRows (bytes 0xD42711AEE0BF98F1B8B45DE51E415230#128)) = 0xD4BF5D30E0B452AEB84111F11E2798E5#128 ∧
  pack (mixColumns (bytes 0xD4BF5D30E0B452AEB84111F11E2798E5#128)) = 0x046681E5E0CB199A48F8D37A2806264C#128 ∧
  pack (aesRound (bytes 0x193DE3BEA0F4E22B9AC68D2AE9F84808#128) (bytes 0xA0FAFE1788542CB123A339392A6C7605#128))
    = 0xA49C7FF2689F352B6B5BEA43026A5049#128

/-- R136 (derived by the spec): the host sequence SUBBYTES; MOV AES_S, AES_O; SHIFTROWS; MOV AES_S, AES_O; MIXCOLS;
MOV AES_S, AES_O; ADDRKEY leaves in AES_O what one AESROUND leaves, and in AES_S the value t3; every other register is as
before. The last clause, that the transactions still pending are as before, is the model's choice (notes/assumptions/1.md and
notes/assumptions/10.md: each line of a host program issues its transactions ahead of what is pending). -/
def Obligations.StagewiseRoundEqualsAesRound : Prop :=
  ∀ s t : State, s.engine.halted = false → exec .aesround s = .next t →
    ∃ (u : State) (t3 : BitVec 128),
      (HostProg.seq (.run .subbytes) (.seq (.mov 0x00#8 0x02#8) (.seq (.run .shiftrows) (.seq (.mov 0x00#8 0x02#8)
        (.seq (.run .mixcols) (.seq (.mov 0x00#8 0x02#8) (.run .addrkey))))))).perform s = .next u ∧
      t3 = pack (mixColumns (shiftRows (subBytes (bytes s.engine.aesS)))) ∧
      u.engine = { t.engine with aesS := t3 } ∧ u.pending = s.pending

/-- R137: two AES inputs that differ in exactly one bit, under the same round key, give AESROUND outputs that differ; by the spec's
derivation the bytes that differ are all four bytes of exactly one column. -/
def Obligations.OneFlippedBitChangesAWholeColumn : Prop :=
  ∀ (v k : BitVec 128) (i : Nat), i < 128 →
    ∃ c : Nat, c < 4 ∧ ∀ j : Fin 16,
      (aesRound (bytes v) (bytes k))[j.val] ≠ (aesRound (bytes (v ^^^ (1#128 <<< i))) (bytes k))[j.val] ↔ j.val / 4 = c

/-! ## Permutation engine -/

/-- R146 in the register terms of R143: with legal lengths, a source that fits and entries in range, PERM.USR writes
out[m-1-i] = src[n - PERM_TBL[i]] for i below m, zeros above, and PERM_OLEN = m; nothing else changes. The examples are R146's. -/
def Obligations.PermUsrPermutesByTheTableRam : Prop :=
  (∀ s : State, s.engine.halted = false →
    s.engine.permSrclen.toNat ≤ 64 → s.engine.permTlen.toNat ≤ 64 →
    s.engine.permSrc.toNat < 2 ^ s.engine.permSrclen.toNat →
    (∀ i : Fin 64, i.val < s.engine.permTlen.toNat →
      1 ≤ (s.engine.permTbl[i.val]).toNat ∧ (s.engine.permTbl[i.val]).toNat ≤ s.engine.permSrclen.toNat) →
    ∃ out : BitVec 64,
      exec .permUsr s
        = .next { s with engine := { s.engine with permOut := out, permOlen := s.engine.permTlen } } ∧
      (∀ i : Fin 64, i.val < s.engine.permTlen.toNat →
        out.getLsbD (s.engine.permTlen.toNat - 1 - i.val)
          = s.engine.permSrc.getLsbD (s.engine.permSrclen.toNat - (s.engine.permTbl[i.val]).toNat)) ∧
      out.toNat < 2 ^ s.engine.permTlen.toNat) ∧
  permReg 0xB0#64 8 [8, 7, 6, 5, 4, 3, 2, 1] = 0x0D#64 ∧ permReg 0xA#64 4 [4, 1, 2, 3, 4, 1] = 0x15#64 ∧
  permReg 0xCA#64 8 [1, 3, 5, 7] = 0xB#64

/-- R144: the length checks of the six PERM commands. PERM.USR with PERM_SRCLEN or PERM_TLEN above 64, a ROM-table command with
PERM_SRCLEN other than the table's, and any of them with a source bit at or above position n, raise LENGTH and write nothing
but STATUS, whatever the table entries are; the last check cannot fail for n = 64. -/
def Obligations.PermCommandsCheckLengthsFirst : Prop :=
  (∀ s : State, s.engine.halted = false →
    64 < s.engine.permSrclen.toNat ∨ 64 < s.engine.permTlen.toNat ∨
      2 ^ s.engine.permSrclen.toNat ≤ s.engine.permSrc.toNat →
    exec .permUsr s = .next { s with engine := s.engine.raise .length }) ∧
  (∀ row ∈ romRows, ∀ s : State, s.engine.halted = false →
    s.engine.permSrclen.toNat ≠ row.nReq ∨ 2 ^ s.engine.permSrclen.toNat ≤ s.engine.permSrc.toNat →
    exec row.instr s = .next { s with engine := s.engine.raise .length }) ∧
  ∀ e : Engine, e.permSrclen.toNat = 64 → e.permSrc.toNat < 2 ^ e.permSrclen.toNat

/-- R145: after the length checks pass, an entry below PERM_TLEN that is 0 or above n makes PERM.USR raise TABLE_INDEX, which sets
HALT, and write no output; with n = 0, m >= 1 always raises it and m = 0 passes; entries at and above m are not examined. -/
def Obligations.PermUsrHaltsOnABadEntry : Prop :=
  (∀ s : State, s.engine.halted = false →
    s.engine.permSrclen.toNat ≤ 64 → s.engine.permTlen.toNat ≤ 64 →
    s.engine.permSrc.toNat < 2 ^ s.engine.permSrclen.toNat →
    (∃ i : Fin 64, i.val < s.engine.permTlen.toNat ∧
      ((s.engine.permTbl[i.val]).toNat = 0 ∨ s.engine.permSrclen.toNat < (s.engine.permTbl[i.val]).toNat)) →
    exec .permUsr s = .next { s with engine := s.engine.raise .tableIndex } ∧
    (s.engine.raise .tableIndex).halted = true) ∧
  (∀ s : State, s.engine.halted = false → s.engine.permSrclen = 0 → s.engine.permSrc = 0 →
    1 ≤ s.engine.permTlen.toNat → s.engine.permTlen.toNat ≤ 64 →
    exec .permUsr s = .next { s with engine := s.engine.raise .tableIndex }) ∧
  (∀ s : State, s.engine.halted = false → s.engine.permSrclen = 0 → s.engine.permSrc = 0 → s.engine.permTlen = 0 →
    exec .permUsr s = .next { s with engine := { s.engine with permOut := 0, permOlen := 0 } }) ∧
  ∀ (s t : State) (i : Fin 64) (v : BitVec 7), s.engine.permTlen.toNat ≤ i.val → exec .permUsr s = .next t →
    exec .permUsr { s with engine := { s.engine with permTbl := s.engine.permTbl.set i.val v } }
      = .next { t with engine := { t.engine with permTbl := t.engine.permTbl.set i.val v } }

/-- R147 in the register terms of R143: with PERM_SRCLEN at the table's source length and a source that fits, a ROM-table command
(PERM.IP, PERM.FP, PERM.E, PERM.P, PERM.PC2) writes out[m-1-i] = src[n - T[i]], zeros above, and PERM_OLEN = m; nothing else
changes. The examples are R147's. -/
def Obligations.RomPermCommandsPermuteByTheirTable : Prop :=
  (∀ row ∈ romRows, ∀ s : State, s.engine.halted = false → s.engine.permSrclen.toNat = row.nReq →
    s.engine.permSrc.toNat < 2 ^ row.nReq →
    ∃ out : BitVec 64,
      exec row.instr s
        = .next { s with engine :=
            { s.engine with permOut := out, permOlen := BitVec.ofNat 7 row.table.length } } ∧
      (∀ i : Nat, i < row.table.length →
        out.getLsbD (row.table.length - 1 - i) = s.engine.permSrc.getLsbD (row.nReq - row.table.getD i 0)) ∧
      out.toNat < 2 ^ row.table.length) ∧
  permReg 0x0123456789ABCDEF#64 64 tIP = 0xCC00CCFFF0AAF0AA#64 ∧
  permReg 0xCC00CCFFF0AAF0AA#64 64 tFP = 0x0123456789ABCDEF#64 ∧
  permReg 0xF0AAF0AA#64 32 tE = 0x7A15557A1555#64 ∧ permReg 0x5C82B597#64 32 tP = 0x234AA9BB#64 ∧
  permReg 0xE19955FAACCF1E#64 56 tPC2 = 0x1B02EFFC7072#64

/-- R147 and R150 to R154 (sizes, kinds and ranges, which the spec derives by inspection): every ROM table has its length and only
entries of its source; IP, FP and P name every source position; E names each of 1..32 once or twice, sixteen of them twice;
PC-2 repeats none and takes its first 24 entries from the C half and the rest from the D half. -/
def Obligations.RomTablesHaveTheirShape : Prop :=
  permTableWf 64 64 tIP = true ∧ permTableWf 64 64 tFP = true ∧ permTableWf 32 48 tE = true ∧
  permTableWf 32 32 tP = true ∧ permTableWf 56 48 tPC2 = true ∧
  tIP.Nodup ∧ tFP.Nodup ∧ tP.Nodup ∧ tPC2.Nodup ∧
  (∀ q : Fin 32, tE.count (q.val + 1) = 1 ∨ tE.count (q.val + 1) = 2) ∧
  ((List.range 32).filter fun q => tE.count (q + 1) == 2).length = 16 ∧
  (tPC2.take 24).all (fun q => decide (q ≤ 28)) = true ∧ (tPC2.drop 24).all (fun q => decide (29 ≤ q)) = true ∧
  shiftScheduleWf shiftSchedule = true ∧ aesSboxWf aesSboxTable = true ∧ mixMatrixWf mixcolTable = true ∧
  desSboxWf desSboxTable = true ∧ desSbox 0 0 0 = 14

/-- R155 (derived by the spec from R150 and R151): IP and FP undo each other on every 64-bit string, and so do PERM.IP and PERM.FP's
results on every source value. -/
def Obligations.IpAndFpAreMutualInverses : Prop :=
  (∀ s : BitString, s.length = 64 →
    permute (permute s tIP) tFP = s ∧ permute (permute s tFP) tIP = s) ∧
  ∀ v : BitVec 64, permReg (permReg v 64 tIP) 64 tFP = v ∧ permReg (permReg v 64 tFP) 64 tIP = v

/-! ## DES units -/

/-- R167 in the register terms of R170: DESKS writes both round keys from DES_KEY and changes nothing else; bit 47-i of Kr is the bit
that PC-2 entry i names in the halves rotated left by 1 (K1) and 2 (K2). The corner cases and the example are R167's. -/
def Obligations.DesksDerivesBothRoundKeys : Prop :=
  (∀ s : State, s.engine.halted = false → ∃ k1 k2 : BitVec 48,
    exec .desks s = .next { s with engine := { s.engine with desK1 := k1, desK2 := k2 } } ∧
    ∀ i : Nat, i < 48 →
      k1.getLsbD (47 - i)
        = ((s.engine.desKey.extractLsb' 28 28).rotateLeft 1 ++ (s.engine.desKey.extractLsb' 0 28).rotateLeft 1).getLsbD
            (56 - tPC2.getD i 0) ∧
      k2.getLsbD (47 - i)
        = ((s.engine.desKey.extractLsb' 28 28).rotateLeft 2 ++ (s.engine.desKey.extractLsb' 0 28).rotateLeft 2).getLsbD
            (56 - tPC2.getD i 0)) ∧
  encode .desks = 0x32#8 ∧
  roundKeys 0 = (0, 0) ∧ roundKeys 0xFFFFFFFFFFFFFF = (0xFFFFFFFFFFFF, 0xFFFFFFFFFFFF) ∧
  roundKeys 0x80000000000000 = (0x010000000000, 0x000008000000) ∧
  roundKeys 0x00000000000001 = (0x000000040000, 0) ∧
  roundKeys 0xF0CCAAF556678F = (0x1B02EFFC7072, 0x79AED9DBC9E5)

/-- R169 (derived by the spec from R166): K1 = K2 whenever both halves of the key are unchanged by a rotation by one place, as for
the four keys whose halves are all zeros or all ones. -/
def Obligations.RoundKeysCoincideOnUniformHalves : Prop :=
  (∀ key : BitVec 56, (key.extractLsb' 28 28).rotateLeft 1 = key.extractLsb' 28 28 →
    (key.extractLsb' 0 28).rotateLeft 1 = key.extractLsb' 0 28 → (roundKeys key).1 = (roundKeys key).2) ∧
  ∀ key ∈ [0x00000000000000#56, 0x0000000FFFFFFF#56, 0xFFFFFFF0000000#56, 0xFFFFFFFFFFFFFF#56],
    (key.extractLsb' 28 28).rotateLeft 1 = key.extractLsb' 28 28 ∧
    (key.extractLsb' 0 28).rotateLeft 1 = key.extractLsb' 0 28

/-- R177 and R180: DESSBOX writes into DES_F the substituted DES_RK and changes nothing else; block i is bits 47-6i to 42-6i, its row
is (first bit, last bit), its column the middle four, its cell bits 31-4i to 28-4i of the result. The corner cases and the
examples are R180's. -/
def Obligations.DessboxSubstitutesEightBlocks : Prop :=
  (∀ s : State, s.engine.halted = false → ∃ v : BitVec 32,
    exec .dessbox s = .next { s with engine := { s.engine with desF := v } } ∧
    v = BitVec.ofNat 32 (val (sboxSub (str s.engine.desRk.toNat 48))) ∧
    ∀ i : Nat, i < 8 →
      (v.extractLsb' (28 - 4 * i) 4).toNat
        = desSbox i
            (2 * (s.engine.desRk.getLsbD (47 - 6 * i)).toNat + (s.engine.desRk.getLsbD (42 - 6 * i)).toNat)
            (s.engine.desRk.extractLsb' (43 - 6 * i) 4).toNat) ∧
  encode .dessbox = 0x31#8 ∧
  sboxReg 0 = 0xEFA72C4D ∧ sboxReg 0xFFFFFFFFFFFF = 0xD9CE3DCB ∧ sboxReg 0x6117BA866527 = 0x5C82B597 ∧
  sboxReg 0x6C0000000000 = 0x5FA72C4D ∧ sboxReg 0x840000000000 = 0xFFA72C4D

/-- R182 and R183: DESF writes f(DES_R, DES_RK) into DES_F and changes nothing else; f is expansion by E, exclusive-or with the key,
the S-box stage and P, here bit by bit. The corner cases and the examples with their inner values are R183's. -/
def Obligations.DesfComputesTheRoundFunction : Prop :=
  (∀ s : State, s.engine.halted = false → ∃ (x : BitVec 48) (v : BitVec 32),
    exec .desf s = .next { s with engine := { s.engine with desF := v } } ∧
    v = BitVec.ofNat 32 (val (feistelF (str s.engine.desR.toNat 32) (str s.engine.desRk.toNat 48))) ∧
    (∀ i : Nat, i < 48 → x.getLsbD (47 - i)
      = Bool.xor (s.engine.desR.getLsbD (32 - tE.getD i 0)) (s.engine.desRk.getLsbD (47 - i))) ∧
    ∀ i : Nat, i < 32 → v.getLsbD (31 - i) = (sboxReg x).getLsbD (32 - tP.getD i 0)) ∧
  encode .desf = 0x30#8 ∧
  feistelReg 0 0 = 0xD8D8DBBC ∧ feistelReg 0xFFFFFFFF 0xFFFFFFFFFFFF = 0xD8D8DBBC ∧
  feistelReg 0xFFFFFFFF 0 = 0x38DBF9CB ∧
  feistelReg 0xF0AAF0AA 0x1B02EFFC7072 = 0x234AA9BB ∧
  permReg 0xF0AAF0AA 32 tE = 0x7A15557A1555 ∧ 0x7A15557A1555#48 ^^^ 0x1B02EFFC7072#48 = 0x6117BA866527#48 ∧
  sboxReg 0x6117BA866527 = 0x5C82B597 ∧
  feistelReg 0xEF4A6544 0x79AED9DBC9E5 = 0x3CAB87A3 ∧
  permReg 0xEF4A6544 32 tE = 0x75EA5430AA09 ∧ 0x75EA5430AA09#48 ^^^ 0x79AED9DBC9E5#48 = 0x0C448DEB63EC#48 ∧
  sboxReg 0x0C448DEB63EC = 0xF8D03AAE

/-- R184 (derived by the spec): PERM.E on r, the host's exclusive-or with k, DESSBOX and PERM.P leave in PERM_OUT the value DESF
leaves in DES_F for DES_R = r and DES_RK = k. -/
def Obligations.StagewiseRoundFunctionEqualsDesf : Prop :=
  ∀ (s : State) (r : BitVec 32) (k : BitVec 48), s.engine.halted = false →
    ∃ t1 t2 t3 : State,
      (HostProg.seq (.ldsrc 32 (r.setWidth 128)) (.run .permE)).perform s = .next t1 ∧
      (HostProg.seq (.wr 0x11#8 ((t1.engine.permOut.setWidth 48 ^^^ k).setWidth 128)) (.run .dessbox)).perform t1
        = .next t2 ∧
      (HostProg.seq (.wr 0x21#8 32) (.seq (.mov 0x20#8 0x12#8) (.run .permP))).perform t2 = .next t3 ∧
      t3.engine.permOut = (feistelReg r k).setWidth 64

/-- Section 2.5 of spec/95_test_vectors.md (derived by the spec from R182 and R141): f of the complemented half and the complemented
key is f of the half and the key. -/
def Obligations.RoundFunctionIgnoresJointComplement : Prop :=
  ∀ (r : BitVec 32) (k : BitVec 48), feistelReg (~~~r) (~~~k) = feistelReg r k

/-- R190 and R191: DES2ENC writes the round keys DESKS would write and, into DES_CT, the two-round cipher: IP, two Feistel rounds, the
swap R2 || L2 (R192) and FP, here bit by bit; nothing else changes. The corner cases and the example with its inner values are
R191's. -/
def Obligations.Des2encRunsTheTwoRoundCipher : Prop :=
  (∀ s : State, s.engine.halted = false →
    ∃ (l0 r0 r1 r2 : BitVec 32) (k1 k2 : BitVec 48) (ct : BitVec 64),
      exec .des2enc s = .next { s with engine := { s.engine with desK1 := k1, desK2 := k2, desCt := ct } } ∧
      exec .desks s = .next { s with engine := { s.engine with desK1 := k1, desK2 := k2 } } ∧
      (∀ i : Nat, i < 64 → (l0 ++ r0).getLsbD (63 - i) = s.engine.desPt.getLsbD (64 - tIP.getD i 0)) ∧
      r1 = l0 ^^^ feistelReg r0 k1 ∧ r2 = r0 ^^^ feistelReg r1 k2 ∧
      ∀ i : Nat, i < 64 → ct.getLsbD (63 - i) = (r2 ++ r1).getLsbD (64 - tFP.getD i 0)) ∧
  encode .des2enc = 0x33#8 ∧
  des2Reg 0 0 = 0x4D5947BFBA56EDEE ∧ des2Reg 0xFFFFFFFFFFFFFFFF 0xFFFFFFFFFFFFFF = 0xB2A6B84045A91211 ∧
  des2Reg 0x0123456789ABCDEF 0xF0CCAAF556678F = 0x9DA4CEE1048CEEC0 ∧
  permReg 0x0123456789ABCDEF 64 tIP = 0xCC00CCFFF0AAF0AA ∧ roundKeys 0xF0CCAAF556678F = (0x1B02EFFC7072, 0x79AED9DBC9E5) ∧
  feistelReg 0xF0AAF0AA 0x1B02EFFC7072 = 0x234AA9BB ∧ 0xCC00CCFF#32 ^^^ 0x234AA9BB#32 = 0xEF4A6544#32 ∧
  feistelReg 0xEF4A6544 0x79AED9DBC9E5 = 0x3CAB87A3 ∧ 0xF0AAF0AA#32 ^^^ 0x3CAB87A3#32 = 0xCC017709#32 ∧
  permReg 0xCC017709EF4A6544 64 tFP = 0x9DA4CEE1048CEEC0

/-- Section 2.6 of spec/95_test_vectors.md (derived by the spec): the cipher of the complemented block under the complemented key is
the complement of the cipher. -/
def Obligations.Des2CommutesWithComplement : Prop :=
  ∀ (p : BitVec 64) (k : BitVec 56), des2Reg (~~~p) (~~~k) = ~~~ des2Reg p k

/-- R193 and section 2.6 of spec/95_test_vectors.md, for every block and key: a host that applies IP, two Feistel rounds with K2
first and K1 second, the swap and FP to the result of DES2ENC gets the block back; so DES2ENC is injective in the block. -/
def Obligations.HostCanInvertDes2enc : Prop :=
  (∀ p k : BitString, p.length = 64 → k.length = 56 → des2HostDecrypt (des2 p k) k = p) ∧
  ∀ (p q : BitVec 64) (k : BitVec 56), des2Reg p k = des2Reg q k → p = q

/-! ## Rules about every command -/

/-- R21, R88, R207: a command changes no register but those its row writes and STATUS; STATUS is written by CLRERR and by failing
PERM commands only: a PERM command either answers the engine with the error LENGTH raised, or, PERM.USR only, with TABLE_INDEX
raised, or keeps STATUS; the eleven commands that are neither keep it always. No command writes a register the host may
write. The clauses on `pending` and `response`, that a command leaves them alone, are the model's choice
(notes/assumptions/1.md). -/
def Obligations.CommandsWriteOnlyTheirOutputs : Prop :=
  (∀ (i : Instr) (s t : State), exec i s = .next t →
    t.pending = s.pending ∧ t.response = s.response ∧
    (∀ r : Reg, r ∉ writeRegs i → r ≠ .status → t.engine.get r = s.engine.get r) ∧
    (i ∈ [.nop, .subbytes, .shiftrows, .mixcols, .addrkey, .aesround, .gfmul, .desf, .dessbox, .desks, .des2enc] →
      t.engine.status = s.engine.status) ∧
    (i ∈ [.permUsr, .permIp, .permFp, .permE, .permP, .permPc2] →
      t.engine = s.engine.raise .length ∨ (i = .permUsr ∧ t.engine = s.engine.raise .tableIndex) ∨
        t.engine.status = s.engine.status)) ∧
  ∀ (i : Instr) (r : Reg), r ∈ writeRegs i → r.hostWritable = false

/-- R9: in two engines that agree on the registers a command reads and on STATUS, the command either raises the same error in both or
leaves the same values in every register it writes, and the same STATUS. Of the table RAM, PERM.USR reads the entries below
PERM_TLEN only (R145). -/
def Obligations.CommandsDependOnlyOnTheirInputs : Prop :=
  ∀ (i : Instr) (s s' : State), s.engine.halted = false → s.engine.status = s'.engine.status →
    (∀ r ∈ readRegs s.engine i, s.engine.get r = s'.engine.get r) →
    ∃ t t' : State, exec i s = .next t ∧ exec i s' = .next t' ∧ t.engine.status = t'.engine.status ∧
      ((∃ x : EpError, t.engine = s.engine.raise x ∧ t'.engine = s'.engine.raise x) ∨
        ∀ r ∈ writeRegs i, t.engine.get r = t'.engine.get r)

/-- R72: running the same command twice on unchanged inputs leaves the same state as running it once. -/
def Obligations.CommandsAreIdempotent : Prop :=
  ∀ (i : Instr) (s t : State), exec i s = .next t → exec i t = .next t

/-- R42 and R37: the invariant of the engine (legal STATUS, the permutation result a string of PERM_OLEN bits) is kept by every step,
whatever the transaction. -/
def Obligations.StepKeepsTheEngineInvariant : Prop :=
  ∀ s t : State, s.engine.Inv → step s = .next t → t.engine.Inv

/-- R42 and R37 at reset (R236). -/
def Obligations.ResetMeetsTheEngineInvariant : Prop := State.reset.engine.Inv

/-- R218, R219, R42: HALT is left by RESET only, and until then no register changes; HALT is entered by the command word 0x40
(PERM.USR) only, in an error entry TABLE_INDEX. -/
def Obligations.HaltIsEnteredByPermUsrAndLeftByReset : Prop :=
  (∀ s t : State, step s = .next t → s.engine.halted = true →
    t.engine = s.engine ∨ (s.pending.head? = some .reset ∧ t.engine = Engine.reset)) ∧
  ∀ s t : State, step s = .next t → s.engine.halted = false → t.engine.halted = true →
    s.pending.head? = some (.cmd 0x40#8) ∧ t.engine = s.engine.raise .tableIndex

/-- R7, R8, R250: a step always ends in a next state, never in a fault or a refusal; it takes exactly one pending transaction, and
with none pending it changes nothing (the last clause is the model's, notes/assumptions/2.md). -/
def Obligations.StepAlwaysEndsInANextState : Prop :=
  (∀ s : State, ∃ t : State, step s = .next t ∧ t.pending = s.pending.tail) ∧
  (∀ (i : Instr) (s : State), ∃ t : State, exec i s = .next t) ∧
  ∀ s : State, s.pending = [] → step s = .next s

/-- R93: the pseudo-instruction LDTBL with at most 64 entries of 7 bits each loads PERM_TBL and PERM_TLEN, and MOV copies a register
into a host-RW register it fits; nothing else of the engine changes. The two clauses that the transactions still pending are as
before are the model's choice (notes/assumptions/1.md and notes/assumptions/10.md). -/
def Obligations.PseudoInstructionsMoveAndLoad : Prop :=
  (∀ (s : State) (ts : List Word), s.engine.halted = false → ts.length ≤ 64 → (∀ t ∈ ts, t.toNat < 128) →
    ∃ u : State, (HostProg.ldtbl ts).perform s = .next u ∧ u.pending = s.pending ∧
      u.engine.permTlen.toNat = ts.length ∧
      (∀ i : Fin 64, u.engine.get (.permTbl i) = if i.val < ts.length then ts.getD i.val 0 else s.engine.get (.permTbl i)) ∧
      ∀ r : Reg, r ≠ .permTlen → (∀ i, r ≠ .permTbl i) → u.engine.get r = s.engine.get r) ∧
  ∀ (s : State) (dst src : Reg), s.engine.halted = false → dst.hostWritable = true →
    (s.engine.get src).toNat < 2 ^ dst.width →
    ∃ u : State, (HostProg.mov dst.id src.id).perform s = .next u ∧ u.pending = s.pending ∧
      u.engine.get dst = s.engine.get src ∧ ∀ r : Reg, r ≠ dst → u.engine.get r = s.engine.get r

/-- R56 (derived by the spec): straight after RESET a READ of each of the eight result registers (AES_O, GF_P, DES_F, DES_K1,
DES_K2, DES_CT, PERM_OUT, PERM_OLEN) returns 0. For AES_O and DES_F that is not the result of a command on zero inputs: AESROUND
on the reset engine gives 0x63 sixteen times and DESF 0xD8D8DBBC. -/
def Obligations.ResetOutputsAreZeroNotResults : Prop :=
  (∀ id ∈ [0x02#8, 0x0A#8, 0x12#8, 0x14#8, 0x15#8, 0x17#8, 0x23#8, 0x24#8], Engine.reset.hostRead id = 0) ∧
  exec .aesround State.reset
    = .next { State.reset with engine :=
        { Engine.reset with aesO := 0x63636363636363636363636363636363#128 } } ∧
  exec .desf State.reset = .next { State.reset with engine := { Engine.reset with desF := 0xD8D8DBBC#32 } }
end

