-- ==== Sys2Proof/Laws/Aes.lean ====
section
/-! SUPPORT. Laws/Aes: the bits of a packed block and the bytes of a register (R16, R67), and the byte each stage puts at each
position (R120, R123, R127, R130). -/

namespace Sys2Proof.Machine

/-- A bit of a list of values or-ed together is set when it is set in one of them. -/
theorem getLsbD_foldl_or {ι : Type} {w : Nat} (f : ι → BitVec w) (k : Nat) :
    ∀ (L : List ι) (z : BitVec w),
      (L.foldl (fun acc i => acc ||| f i) z).getLsbD k = (z.getLsbD k || L.any fun i => (f i).getLsbD k)
  | [], z => by simp
  | i :: L, z => by
    rw [List.foldl_cons, getLsbD_foldl_or f k L]
    simp [Bool.or_assoc]

/-- Bit k of a packed block is bit k mod 8 of byte 15 - k/8 (R16). -/
theorem getLsbD_pack (s : StateMatrix) {k : Nat} (h : k < 128) :
    (pack s).getLsbD k = (s[15 - k / 8]).getLsbD (k % 8) := by
  rw [pack, getLsbD_foldl_or, show BitVec.getLsbD (0 : BitVec 128) k = false from BitVec.getLsbD_zero, Bool.false_or,
    Bool.eq_iff_iff, List.any_eq_true]
  constructor
  · rintro ⟨i, -, hi⟩
    simp only [placeByte, BitVec.getLsbD_shiftLeft, BitVec.getLsbD_setWidth, Bool.and_eq_true, decide_eq_true_eq,
      Bool.not_eq_true', decide_eq_false_iff_not] at hi
    obtain ⟨⟨-, h1⟩, -, h2⟩ := hi
    have h3 := BitVec.lt_of_getLsbD h2
    have e1 : 15 - k / 8 = i.val := by omega
    have e2 : k - (120 - 8 * i.val) = k % 8 := by omega
    rw [e2] at h2
    simpa [e1] using h2
  · intro hk
    refine ⟨⟨15 - k / 8, by omega⟩, List.mem_finRange _, ?_⟩
    have e1 : k - (120 - 8 * (15 - k / 8)) = k % 8 := by omega
    simp only [placeByte, BitVec.getLsbD_shiftLeft, BitVec.getLsbD_setWidth, e1, hk, Bool.and_true, Bool.and_eq_true,
      decide_eq_true_eq, Bool.not_eq_true', decide_eq_false_iff_not]
    omega

/-- Byte i of a register (R16). -/
@[simp] theorem bytes_getElem (v : BitVec 128) {i : Nat} (h : i < 16) :
    (bytes v)[i] = v.extractLsb' (120 - 8 * i) 8 := by simp [bytes]

@[simp] theorem subBytes_getElem (m : StateMatrix) {i : Nat} (h : i < 16) : (subBytes m)[i] = aesSbox m[i] := by
  simp [subBytes]

@[simp] theorem shiftRows_getElem (m : StateMatrix) {i : Nat} (h : i < 16) :
    (shiftRows m)[i] = m[shiftSrc i]'(shiftSrc_lt i) := by simp [shiftRows]

@[simp] theorem addRoundKey_getElem (m k : StateMatrix) {i : Nat} (h : i < 16) :
    (addRoundKey m k)[i] = m[i] ^^^ k[i] := by simp [addRoundKey]

/-- Output byte 4c + row of MixColumns (R127). -/
theorem mixColumns_getElem (m : StateMatrix) {i : Nat} (h : i < 16) :
    (mixColumns m)[i] = gfMul (mixcolM (i % 4) 0) m[4 * (i / 4)] ^^^ gfMul (mixcolM (i % 4) 1) m[4 * (i / 4) + 1]
      ^^^ gfMul (mixcolM (i % 4) 2) m[4 * (i / 4) + 2] ^^^ gfMul (mixcolM (i % 4) 3) m[4 * (i / 4) + 3] := by
  simp [mixColumns]

end Sys2Proof.Machine
end

