-- ==== Sys2Proof/Laws/BitString.lean ====
section
/-! SUPPORT. Laws/BitString: lengths and positions of the string functions (R13 to R15, R141), `str` and `val` as inverses
(R14), and how `permute` and `xor` compose. -/

namespace Sys2Proof.Machine

@[simp] theorem str_length (v n : Nat) : (str v n).length = n := by simp [str]

/-- `str(v, n){p} = v[n-1-p]` (R14). -/
theorem bitAt_str {v n p : Nat} (h : p < n) : bitAt (str v n) p = v.testBit (n - 1 - p) := by
  simp [bitAt, str, h]

/-- Two strings of one length that agree at every position are equal. -/
theorem bitString_ext {s t : BitString} (hl : s.length = t.length) (h : ∀ p < s.length, bitAt s p = bitAt t p) : s = t := by
  apply List.ext_getElem hl
  intro p h1 h2
  have := h p h1
  simpa [bitAt, h1, h2] using this

theorem val_lt (s : BitString) : val s < 2 ^ s.length := by
  induction s with
  | nil => simp [val]
  | cons b s ih =>
    simp only [val, List.length_cons, pow_succ]
    cases b <;> simp <;> omega

/-- The register view of `val` (R68): position p is register bit n-1-p. -/
theorem val_testBit : ∀ (s : BitString) {p : Nat}, p < s.length → (val s).testBit (s.length - 1 - p) = bitAt s p
  | b :: s, 0, _ => by
    have := val_lt s
    cases b
    · simp [val, bitAt, Nat.testBit_lt_two_pow this]
    · simp [val, bitAt, Nat.testBit_two_pow_add_eq, Nat.testBit_lt_two_pow this]
  | b :: s, p + 1, h => by
    have hp : p < s.length := by simpa using h
    have ih := val_testBit s hp
    have e : (b :: s).length - 1 - (p + 1) = s.length - 1 - p := by simp; omega
    rw [e]
    have hlt : s.length - 1 - p < s.length := by omega
    cases b
    · simpa [val, bitAt] using ih
    · simpa [val, bitAt, Nat.testBit_two_pow_add_gt hlt] using ih

/-- Reading a string back from its number (R14). -/
theorem str_val (s : BitString) : str (val s) s.length = s := by
  apply bitString_ext (by simp)
  intro p hp
  rw [str_length] at hp
  rw [bitAt_str hp, val_testBit s hp]

/-- The number of the string of a number (R14). -/
theorem val_str {v n : Nat} (h : v < 2 ^ n) : val (str v n) = v := by
  apply Nat.eq_of_testBit_eq
  intro i
  by_cases hi : i < n
  · have hp : n - 1 - i < (str v n).length := by simp; omega
    have := val_testBit (str v n) hp
    rw [bitAt_str (by omega)] at this
    simp only [str_length] at this
    have e : n - 1 - (n - 1 - i) = i := by omega
    rwa [e] at this
  · have h1 := val_lt (str v n)
    rw [str_length] at h1
    have h2 : 2 ^ n ≤ 2 ^ i := Nat.pow_le_pow_right (by omega) (by omega)
    rw [Nat.testBit_lt_two_pow (by omega), Nat.testBit_lt_two_pow (by omega)]

@[simp] theorem permute_length (s : BitString) (T : List Nat) : (permute s T).length = T.length := by simp [permute]

/-- `o{i} = s{T[i] - 1}` (R141). -/
theorem bitAt_permute (s : BitString) {T : List Nat} {i : Nat} (h : i < T.length) :
    bitAt (permute s T) i = bitAt s (T[i] - 1) := by
  simp [bitAt, permute, h]

/-- One permutation after another is the permutation by the composed table, whose entries must be positions of the first
table. -/
theorem permute_permute (s : BitString) {T U : List Nat} (h : ∀ q ∈ U, 1 ≤ q ∧ q ≤ T.length) :
    permute (permute s T) U = permute s (U.map fun q => T.getD (q - 1) 0) := by
  simp only [permute, List.map_map]
  apply List.map_congr_left
  intro q hq
  have := h q hq
  have hlt : q - 1 < T.length := by omega
  simp [bitAt, hlt]

@[simp] theorem rotl_length (s : BitString) (k : Nat) : (rotl s k).length = s.length := by simp [rotl]

theorem bitAt_rotl (s : BitString) {k p : Nat} (h : p < s.length) :
    bitAt (rotl s k) p = bitAt s ((p + k) % s.length) := by
  simp [bitAt, rotl, h]

@[simp] theorem xorStr_length (s t : BitString) : (xorStr s t).length = min s.length t.length := by simp [xorStr]

theorem bitAt_xorStr {s t : BitString} {p : Nat} (hs : p < s.length) (ht : p < t.length) :
    bitAt (xorStr s t) p = Bool.xor (bitAt s p) (bitAt t p) := by
  simp [bitAt, xorStr, hs, ht]

theorem xorStr_comm (s t : BitString) : xorStr s t = xorStr t s := by
  simp only [xorStr]
  rw [List.zipWith_comm]
  simp [Bool.xor_comm]

/-- The exclusive-or with the same string twice gives the string back (R185). -/
theorem xorStr_cancel : ∀ {s t : BitString}, s.length = t.length → xorStr (xorStr s t) t = s
  | [], [], _ => rfl
  | a :: s, b :: t, h => by
    have := xorStr_cancel (s := s) (t := t) (by simpa using h)
    simpa [xorStr] using this

@[simp] theorem substr_length {s : BitString} {a b : Nat} (h : b < s.length) (hab : a ≤ b) :
    (substr s a b).length = b + 1 - a := by
  simp [substr]; omega

theorem bitAt_substr {s : BitString} {a b p : Nat} (h : a + p ≤ b) : bitAt (substr s a b) p = bitAt s (a + p) := by
  have : p < b + 1 - a := by omega
  simp [bitAt, substr, this]

theorem bitAt_append_left {s t : BitString} {p : Nat} (h : p < s.length) : bitAt (s ++ t) p = bitAt s p := by
  simp [bitAt, List.getElem?_append_left h, h]

theorem bitAt_append_right {s t : BitString} {p : Nat} (h : s.length ≤ p) :
    bitAt (s ++ t) p = bitAt t (p - s.length) := by
  simp [bitAt, List.getElem?_append_right h]

/-- A string is its first half followed by its second. -/
theorem substr_append {s : BitString} {m n : Nat} (h : s.length = n + 1) (hm : m < n) :
    substr s 0 m ++ substr s (m + 1) n = s := by
  have h1 : (s.drop (m + 1)).length ≤ n + 1 - (m + 1) := by simp; omega
  simp only [substr, List.drop_zero, Nat.sub_zero, List.take_of_length_le h1]
  exact List.take_append_drop (m + 1) s

@[simp] theorem sboxBlock_length (x : BitString) (i : Nat) : (sboxBlock x i).length = 4 := by simp [sboxBlock]

@[simp] theorem sboxSub_length (x : BitString) : (sboxSub x).length = 32 := by
  simp [sboxSub, List.range_succ]

@[simp] theorem feistelF_length (r k : BitString) : (feistelF r k).length = 32 := by
  simp [feistelF, tP]

@[simp] theorem keySchedule_length (k : BitString) :
    (keySchedule k).1.length = 48 ∧ (keySchedule k).2.length = 48 := by
  simp [keySchedule, tPC2]

@[simp] theorem des2_length (p k : BitString) : (des2 p k).length = 64 := by simp [des2, tFP]

/-- A bit of the string of a register (R14, R68). -/
theorem bitAt_str_reg {w : Nat} (r : BitVec w) {n p : Nat} (h : p < n) :
    bitAt (str r.toNat n) p = r.getLsbD (n - 1 - p) := by
  rw [bitAt_str h, BitVec.testBit_toNat]

/-- A bit of the register that holds a string (R14, R68): position p is register bit n-1-p. -/
theorem getLsbD_ofNat_val {w : Nat} {s : BitString} {p : Nat} (hp : p < s.length) (hw : s.length ≤ w) :
    (BitVec.ofNat w (val s)).getLsbD (s.length - 1 - p) = bitAt s p := by
  rw [BitVec.getLsbD_ofNat, val_testBit s hp]
  have : s.length - 1 - p < w := by omega
  simp [this]

/-- A register that holds an n-bit string is below 2^n (R14). -/
theorem toNat_ofNat_val_lt {w : Nat} {s : BitString} (hw : s.length ≤ w) :
    (BitVec.ofNat w (val s)).toNat < 2 ^ s.length := by
  rw [BitVec.toNat_ofNat]
  have h1 := val_lt s
  have h2 : 2 ^ s.length ≤ 2 ^ w := Nat.pow_le_pow_right (by omega) hw
  rwa [Nat.mod_eq_of_lt (by omega)]

/-- The string of a register that holds a string of its width is that string (R14). -/
theorem str_ofNat_val {w : Nat} {s : BitString} (h : s.length = w) : str (BitVec.ofNat w (val s)).toNat w = s := by
  have h1 := val_lt s
  rw [BitVec.toNat_ofNat, ← h, Nat.mod_eq_of_lt h1, str_val]

/-- The register that holds the string of a register is that register (R14). -/
theorem ofNat_val_str {w : Nat} (r : BitVec w) : BitVec.ofNat w (val (str r.toNat w)) = r := by
  rw [val_str r.isLt]; simp

/-- The register view of a permutation (R143): `out[m-1-i] = src[n - T[i]]`. -/
theorem permReg_getLsbD {src : BitVec 64} {n : Nat} {T : List Nat} {i : Nat} (hi : i < T.length) (hm : T.length ≤ 64)
    (h1 : 1 ≤ T[i]) (hn : T[i] ≤ n) : (permReg src n T).getLsbD (T.length - 1 - i) = src.getLsbD (n - T[i]) := by
  have hlen : (permute (str src.toNat n) T).length = T.length := permute_length _ _
  have h := getLsbD_ofNat_val (w := 64) (s := permute (str src.toNat n) T) (p := i) (by rw [hlen]; exact hi)
    (by rw [hlen]; exact hm)
  rw [hlen, bitAt_permute _ hi, bitAt_str_reg _ (by omega)] at h
  rw [permReg, h]
  congr 1
  omega

/-- The bits above a permutation's result are zero (R143). -/
theorem permReg_lt {src : BitVec 64} {n : Nat} {T : List Nat} (hm : T.length ≤ 64) :
    (permReg src n T).toNat < 2 ^ T.length := by
  have h := toNat_ofNat_val_lt (w := 64) (s := permute (str src.toNat n) T) (by simpa using hm)
  rwa [permute_length] at h

end Sys2Proof.Machine
end

