-- ==== Sys2Proof/Laws/State.lean ====
section
/-! SUPPORT. Laws/State: one lemma per field and update of the engine, and what each register's read gives after it, so that
no proof unfolds a record update. -/

namespace Sys2Proof.Machine

section withStatus
variable (e : Engine) (st : BitVec 8)

@[simp] theorem Engine.withStatus_aesS : (e.withStatus st).aesS = e.aesS := (rfl)
@[simp] theorem Engine.withStatus_aesK : (e.withStatus st).aesK = e.aesK := (rfl)
@[simp] theorem Engine.withStatus_aesO : (e.withStatus st).aesO = e.aesO := (rfl)
@[simp] theorem Engine.withStatus_gfA : (e.withStatus st).gfA = e.gfA := (rfl)
@[simp] theorem Engine.withStatus_gfB : (e.withStatus st).gfB = e.gfB := (rfl)
@[simp] theorem Engine.withStatus_gfP : (e.withStatus st).gfP = e.gfP := (rfl)
@[simp] theorem Engine.withStatus_desR : (e.withStatus st).desR = e.desR := (rfl)
@[simp] theorem Engine.withStatus_desRk : (e.withStatus st).desRk = e.desRk := (rfl)
@[simp] theorem Engine.withStatus_desF : (e.withStatus st).desF = e.desF := (rfl)
@[simp] theorem Engine.withStatus_desKey : (e.withStatus st).desKey = e.desKey := (rfl)
@[simp] theorem Engine.withStatus_desK1 : (e.withStatus st).desK1 = e.desK1 := (rfl)
@[simp] theorem Engine.withStatus_desK2 : (e.withStatus st).desK2 = e.desK2 := (rfl)
@[simp] theorem Engine.withStatus_desPt : (e.withStatus st).desPt = e.desPt := (rfl)
@[simp] theorem Engine.withStatus_desCt : (e.withStatus st).desCt = e.desCt := (rfl)
@[simp] theorem Engine.withStatus_permSrc : (e.withStatus st).permSrc = e.permSrc := (rfl)
@[simp] theorem Engine.withStatus_permSrclen : (e.withStatus st).permSrclen = e.permSrclen := (rfl)
@[simp] theorem Engine.withStatus_permTlen : (e.withStatus st).permTlen = e.permTlen := (rfl)
@[simp] theorem Engine.withStatus_permOut : (e.withStatus st).permOut = e.permOut := (rfl)
@[simp] theorem Engine.withStatus_permOlen : (e.withStatus st).permOlen = e.permOlen := (rfl)
@[simp] theorem Engine.withStatus_status : (e.withStatus st).status = st := (rfl)
@[simp] theorem Engine.withStatus_permTbl : (e.withStatus st).permTbl = e.permTbl := (rfl)

end withStatus

section withAesO
variable (e : Engine) (v : BitVec 128)

@[simp] theorem Engine.withAesO_aesS : (e.withAesO v).aesS = e.aesS := (rfl)
@[simp] theorem Engine.withAesO_aesK : (e.withAesO v).aesK = e.aesK := (rfl)
@[simp] theorem Engine.withAesO_aesO : (e.withAesO v).aesO = v := (rfl)
@[simp] theorem Engine.withAesO_gfA : (e.withAesO v).gfA = e.gfA := (rfl)
@[simp] theorem Engine.withAesO_gfB : (e.withAesO v).gfB = e.gfB := (rfl)
@[simp] theorem Engine.withAesO_gfP : (e.withAesO v).gfP = e.gfP := (rfl)
@[simp] theorem Engine.withAesO_desR : (e.withAesO v).desR = e.desR := (rfl)
@[simp] theorem Engine.withAesO_desRk : (e.withAesO v).desRk = e.desRk := (rfl)
@[simp] theorem Engine.withAesO_desF : (e.withAesO v).desF = e.desF := (rfl)
@[simp] theorem Engine.withAesO_desKey : (e.withAesO v).desKey = e.desKey := (rfl)
@[simp] theorem Engine.withAesO_desK1 : (e.withAesO v).desK1 = e.desK1 := (rfl)
@[simp] theorem Engine.withAesO_desK2 : (e.withAesO v).desK2 = e.desK2 := (rfl)
@[simp] theorem Engine.withAesO_desPt : (e.withAesO v).desPt = e.desPt := (rfl)
@[simp] theorem Engine.withAesO_desCt : (e.withAesO v).desCt = e.desCt := (rfl)
@[simp] theorem Engine.withAesO_permSrc : (e.withAesO v).permSrc = e.permSrc := (rfl)
@[simp] theorem Engine.withAesO_permSrclen : (e.withAesO v).permSrclen = e.permSrclen := (rfl)
@[simp] theorem Engine.withAesO_permTlen : (e.withAesO v).permTlen = e.permTlen := (rfl)
@[simp] theorem Engine.withAesO_permOut : (e.withAesO v).permOut = e.permOut := (rfl)
@[simp] theorem Engine.withAesO_permOlen : (e.withAesO v).permOlen = e.permOlen := (rfl)
@[simp] theorem Engine.withAesO_status : (e.withAesO v).status = e.status := (rfl)
@[simp] theorem Engine.withAesO_permTbl : (e.withAesO v).permTbl = e.permTbl := (rfl)

end withAesO

section withGfP
variable (e : Engine) (v : BitVec 8)

@[simp] theorem Engine.withGfP_aesS : (e.withGfP v).aesS = e.aesS := (rfl)
@[simp] theorem Engine.withGfP_aesK : (e.withGfP v).aesK = e.aesK := (rfl)
@[simp] theorem Engine.withGfP_aesO : (e.withGfP v).aesO = e.aesO := (rfl)
@[simp] theorem Engine.withGfP_gfA : (e.withGfP v).gfA = e.gfA := (rfl)
@[simp] theorem Engine.withGfP_gfB : (e.withGfP v).gfB = e.gfB := (rfl)
@[simp] theorem Engine.withGfP_gfP : (e.withGfP v).gfP = v := (rfl)
@[simp] theorem Engine.withGfP_desR : (e.withGfP v).desR = e.desR := (rfl)
@[simp] theorem Engine.withGfP_desRk : (e.withGfP v).desRk = e.desRk := (rfl)
@[simp] theorem Engine.withGfP_desF : (e.withGfP v).desF = e.desF := (rfl)
@[simp] theorem Engine.withGfP_desKey : (e.withGfP v).desKey = e.desKey := (rfl)
@[simp] theorem Engine.withGfP_desK1 : (e.withGfP v).desK1 = e.desK1 := (rfl)
@[simp] theorem Engine.withGfP_desK2 : (e.withGfP v).desK2 = e.desK2 := (rfl)
@[simp] theorem Engine.withGfP_desPt : (e.withGfP v).desPt = e.desPt := (rfl)
@[simp] theorem Engine.withGfP_desCt : (e.withGfP v).desCt = e.desCt := (rfl)
@[simp] theorem Engine.withGfP_permSrc : (e.withGfP v).permSrc = e.permSrc := (rfl)
@[simp] theorem Engine.withGfP_permSrclen : (e.withGfP v).permSrclen = e.permSrclen := (rfl)
@[simp] theorem Engine.withGfP_permTlen : (e.withGfP v).permTlen = e.permTlen := (rfl)
@[simp] theorem Engine.withGfP_permOut : (e.withGfP v).permOut = e.permOut := (rfl)
@[simp] theorem Engine.withGfP_permOlen : (e.withGfP v).permOlen = e.permOlen := (rfl)
@[simp] theorem Engine.withGfP_status : (e.withGfP v).status = e.status := (rfl)
@[simp] theorem Engine.withGfP_permTbl : (e.withGfP v).permTbl = e.permTbl := (rfl)

end withGfP

section withDesF
variable (e : Engine) (v : BitVec 32)

@[simp] theorem Engine.withDesF_aesS : (e.withDesF v).aesS = e.aesS := (rfl)
@[simp] theorem Engine.withDesF_aesK : (e.withDesF v).aesK = e.aesK := (rfl)
@[simp] theorem Engine.withDesF_aesO : (e.withDesF v).aesO = e.aesO := (rfl)
@[simp] theorem Engine.withDesF_gfA : (e.withDesF v).gfA = e.gfA := (rfl)
@[simp] theorem Engine.withDesF_gfB : (e.withDesF v).gfB = e.gfB := (rfl)
@[simp] theorem Engine.withDesF_gfP : (e.withDesF v).gfP = e.gfP := (rfl)
@[simp] theorem Engine.withDesF_desR : (e.withDesF v).desR = e.desR := (rfl)
@[simp] theorem Engine.withDesF_desRk : (e.withDesF v).desRk = e.desRk := (rfl)
@[simp] theorem Engine.withDesF_desF : (e.withDesF v).desF = v := (rfl)
@[simp] theorem Engine.withDesF_desKey : (e.withDesF v).desKey = e.desKey := (rfl)
@[simp] theorem Engine.withDesF_desK1 : (e.withDesF v).desK1 = e.desK1 := (rfl)
@[simp] theorem Engine.withDesF_desK2 : (e.withDesF v).desK2 = e.desK2 := (rfl)
@[simp] theorem Engine.withDesF_desPt : (e.withDesF v).desPt = e.desPt := (rfl)
@[simp] theorem Engine.withDesF_desCt : (e.withDesF v).desCt = e.desCt := (rfl)
@[simp] theorem Engine.withDesF_permSrc : (e.withDesF v).permSrc = e.permSrc := (rfl)
@[simp] theorem Engine.withDesF_permSrclen : (e.withDesF v).permSrclen = e.permSrclen := (rfl)
@[simp] theorem Engine.withDesF_permTlen : (e.withDesF v).permTlen = e.permTlen := (rfl)
@[simp] theorem Engine.withDesF_permOut : (e.withDesF v).permOut = e.permOut := (rfl)
@[simp] theorem Engine.withDesF_permOlen : (e.withDesF v).permOlen = e.permOlen := (rfl)
@[simp] theorem Engine.withDesF_status : (e.withDesF v).status = e.status := (rfl)
@[simp] theorem Engine.withDesF_permTbl : (e.withDesF v).permTbl = e.permTbl := (rfl)

end withDesF

section withDesKeys
variable (e : Engine) (k1 k2 : BitVec 48)

@[simp] theorem Engine.withDesKeys_aesS : (e.withDesKeys k1 k2).aesS = e.aesS := (rfl)
@[simp] theorem Engine.withDesKeys_aesK : (e.withDesKeys k1 k2).aesK = e.aesK := (rfl)
@[simp] theorem Engine.withDesKeys_aesO : (e.withDesKeys k1 k2).aesO = e.aesO := (rfl)
@[simp] theorem Engine.withDesKeys_gfA : (e.withDesKeys k1 k2).gfA = e.gfA := (rfl)
@[simp] theorem Engine.withDesKeys_gfB : (e.withDesKeys k1 k2).gfB = e.gfB := (rfl)
@[simp] theorem Engine.withDesKeys_gfP : (e.withDesKeys k1 k2).gfP = e.gfP := (rfl)
@[simp] theorem Engine.withDesKeys_desR : (e.withDesKeys k1 k2).desR = e.desR := (rfl)
@[simp] theorem Engine.withDesKeys_desRk : (e.withDesKeys k1 k2).desRk = e.desRk := (rfl)
@[simp] theorem Engine.withDesKeys_desF : (e.withDesKeys k1 k2).desF = e.desF := (rfl)
@[simp] theorem Engine.withDesKeys_desKey : (e.withDesKeys k1 k2).desKey = e.desKey := (rfl)
@[simp] theorem Engine.withDesKeys_desK1 : (e.withDesKeys k1 k2).desK1 = k1 := (rfl)
@[simp] theorem Engine.withDesKeys_desK2 : (e.withDesKeys k1 k2).desK2 = k2 := (rfl)
@[simp] theorem Engine.withDesKeys_desPt : (e.withDesKeys k1 k2).desPt = e.desPt := (rfl)
@[simp] theorem Engine.withDesKeys_desCt : (e.withDesKeys k1 k2).desCt = e.desCt := (rfl)
@[simp] theorem Engine.withDesKeys_permSrc : (e.withDesKeys k1 k2).permSrc = e.permSrc := (rfl)
@[simp] theorem Engine.withDesKeys_permSrclen : (e.withDesKeys k1 k2).permSrclen = e.permSrclen := (rfl)
@[simp] theorem Engine.withDesKeys_permTlen : (e.withDesKeys k1 k2).permTlen = e.permTlen := (rfl)
@[simp] theorem Engine.withDesKeys_permOut : (e.withDesKeys k1 k2).permOut = e.permOut := (rfl)
@[simp] theorem Engine.withDesKeys_permOlen : (e.withDesKeys k1 k2).permOlen = e.permOlen := (rfl)
@[simp] theorem Engine.withDesKeys_status : (e.withDesKeys k1 k2).status = e.status := (rfl)
@[simp] theorem Engine.withDesKeys_permTbl : (e.withDesKeys k1 k2).permTbl = e.permTbl := (rfl)

end withDesKeys

section withDesCt
variable (e : Engine) (v : BitVec 64)

@[simp] theorem Engine.withDesCt_aesS : (e.withDesCt v).aesS = e.aesS := (rfl)
@[simp] theorem Engine.withDesCt_aesK : (e.withDesCt v).aesK = e.aesK := (rfl)
@[simp] theorem Engine.withDesCt_aesO : (e.withDesCt v).aesO = e.aesO := (rfl)
@[simp] theorem Engine.withDesCt_gfA : (e.withDesCt v).gfA = e.gfA := (rfl)
@[simp] theorem Engine.withDesCt_gfB : (e.withDesCt v).gfB = e.gfB := (rfl)
@[simp] theorem Engine.withDesCt_gfP : (e.withDesCt v).gfP = e.gfP := (rfl)
@[simp] theorem Engine.withDesCt_desR : (e.withDesCt v).desR = e.desR := (rfl)
@[simp] theorem Engine.withDesCt_desRk : (e.withDesCt v).desRk = e.desRk := (rfl)
@[simp] theorem Engine.withDesCt_desF : (e.withDesCt v).desF = e.desF := (rfl)
@[simp] theorem Engine.withDesCt_desKey : (e.withDesCt v).desKey = e.desKey := (rfl)
@[simp] theorem Engine.withDesCt_desK1 : (e.withDesCt v).desK1 = e.desK1 := (rfl)
@[simp] theorem Engine.withDesCt_desK2 : (e.withDesCt v).desK2 = e.desK2 := (rfl)
@[simp] theorem Engine.withDesCt_desPt : (e.withDesCt v).desPt = e.desPt := (rfl)
@[simp] theorem Engine.withDesCt_desCt : (e.withDesCt v).desCt = v := (rfl)
@[simp] theorem Engine.withDesCt_permSrc : (e.withDesCt v).permSrc = e.permSrc := (rfl)
@[simp] theorem Engine.withDesCt_permSrclen : (e.withDesCt v).permSrclen = e.permSrclen := (rfl)
@[simp] theorem Engine.withDesCt_permTlen : (e.withDesCt v).permTlen = e.permTlen := (rfl)
@[simp] theorem Engine.withDesCt_permOut : (e.withDesCt v).permOut = e.permOut := (rfl)
@[simp] theorem Engine.withDesCt_permOlen : (e.withDesCt v).permOlen = e.permOlen := (rfl)
@[simp] theorem Engine.withDesCt_status : (e.withDesCt v).status = e.status := (rfl)
@[simp] theorem Engine.withDesCt_permTbl : (e.withDesCt v).permTbl = e.permTbl := (rfl)

end withDesCt

section withPermOut
variable (e : Engine) (v : BitVec 64) (m : BitVec 7)

@[simp] theorem Engine.withPermOut_aesS : (e.withPermOut v m).aesS = e.aesS := (rfl)
@[simp] theorem Engine.withPermOut_aesK : (e.withPermOut v m).aesK = e.aesK := (rfl)
@[simp] theorem Engine.withPermOut_aesO : (e.withPermOut v m).aesO = e.aesO := (rfl)
@[simp] theorem Engine.withPermOut_gfA : (e.withPermOut v m).gfA = e.gfA := (rfl)
@[simp] theorem Engine.withPermOut_gfB : (e.withPermOut v m).gfB = e.gfB := (rfl)
@[simp] theorem Engine.withPermOut_gfP : (e.withPermOut v m).gfP = e.gfP := (rfl)
@[simp] theorem Engine.withPermOut_desR : (e.withPermOut v m).desR = e.desR := (rfl)
@[simp] theorem Engine.withPermOut_desRk : (e.withPermOut v m).desRk = e.desRk := (rfl)
@[simp] theorem Engine.withPermOut_desF : (e.withPermOut v m).desF = e.desF := (rfl)
@[simp] theorem Engine.withPermOut_desKey : (e.withPermOut v m).desKey = e.desKey := (rfl)
@[simp] theorem Engine.withPermOut_desK1 : (e.withPermOut v m).desK1 = e.desK1 := (rfl)
@[simp] theorem Engine.withPermOut_desK2 : (e.withPermOut v m).desK2 = e.desK2 := (rfl)
@[simp] theorem Engine.withPermOut_desPt : (e.withPermOut v m).desPt = e.desPt := (rfl)
@[simp] theorem Engine.withPermOut_desCt : (e.withPermOut v m).desCt = e.desCt := (rfl)
@[simp] theorem Engine.withPermOut_permSrc : (e.withPermOut v m).permSrc = e.permSrc := (rfl)
@[simp] theorem Engine.withPermOut_permSrclen : (e.withPermOut v m).permSrclen = e.permSrclen := (rfl)
@[simp] theorem Engine.withPermOut_permTlen : (e.withPermOut v m).permTlen = e.permTlen := (rfl)
@[simp] theorem Engine.withPermOut_permOut : (e.withPermOut v m).permOut = v := (rfl)
@[simp] theorem Engine.withPermOut_permOlen : (e.withPermOut v m).permOlen = m := (rfl)
@[simp] theorem Engine.withPermOut_status : (e.withPermOut v m).status = e.status := (rfl)
@[simp] theorem Engine.withPermOut_permTbl : (e.withPermOut v m).permTbl = e.permTbl := (rfl)

end withPermOut

section twice
variable (e : Engine)

/-! A second write of the same registers leaves the second values. -/

@[simp] theorem Engine.withStatus_withStatus (a b : BitVec 8) : (e.withStatus a).withStatus b = e.withStatus b := (rfl)

@[simp] theorem Engine.withAesO_withAesO (a b : BitVec 128) : (e.withAesO a).withAesO b = e.withAesO b := (rfl)

@[simp] theorem Engine.withGfP_withGfP (a b : BitVec 8) : (e.withGfP a).withGfP b = e.withGfP b := (rfl)

@[simp] theorem Engine.withDesF_withDesF (a b : BitVec 32) : (e.withDesF a).withDesF b = e.withDesF b := (rfl)

@[simp] theorem Engine.withDesKeys_withDesKeys (a1 a2 b1 b2 : BitVec 48) :
    (e.withDesKeys a1 a2).withDesKeys b1 b2 = e.withDesKeys b1 b2 := (rfl)

@[simp] theorem Engine.withDesCt_withDesCt (a b : BitVec 64) : (e.withDesCt a).withDesCt b = e.withDesCt b := (rfl)

@[simp] theorem Engine.withDesCt_withDesKeys (a : BitVec 64) (b1 b2 : BitVec 48) :
    (e.withDesCt a).withDesKeys b1 b2 = (e.withDesKeys b1 b2).withDesCt a := (rfl)

@[simp] theorem Engine.withPermOut_withPermOut (a b : BitVec 64) (m n : BitVec 7) :
    (e.withPermOut a m).withPermOut b n = e.withPermOut b n := (rfl)

end twice

/-- Two engines whose fields agree are equal. -/
theorem Engine.ext_fields : ∀ {e e' : Engine}, e.aesS = e'.aesS → e.aesK = e'.aesK → e.aesO = e'.aesO → e.gfA = e'.gfA →
    e.gfB = e'.gfB → e.gfP = e'.gfP → e.desR = e'.desR → e.desRk = e'.desRk → e.desF = e'.desF → e.desKey = e'.desKey →
    e.desK1 = e'.desK1 → e.desK2 = e'.desK2 → e.desPt = e'.desPt → e.desCt = e'.desCt → e.permSrc = e'.permSrc →
    e.permSrclen = e'.permSrclen → e.permTlen = e'.permTlen → e.permOut = e'.permOut → e.permOlen = e'.permOlen →
    e.status = e'.status → e.permTbl = e'.permTbl → e = e'
  | ⟨_, _, _, _, _, _, _, _, _, _, _, _, _, _, _, _, _, _, _, _, _⟩, ⟨_, _, _, _, _, _, _, _, _, _, _, _, _, _, _, _, _, _, _, _, _⟩ => by
    simp only [Engine.mk.injEq]
    intros
    simp_all

end Sys2Proof.Machine
end

