-- ==== Sys2Proof/Laws/Flags.lean ====
section
/-! SUPPORT. Laws/Flags: what each write of a STATUS field does to every field (R42), and what the error entry and the
acknowledgement leave (R215, R201). -/

namespace Sys2Proof.Machine

@[simp] theorem statusErr_withErr (st : BitVec 8) (b : Bool) : statusErr (withErr st b) = b := by
  revert st b; decide

@[simp] theorem statusHalt_withErr (st : BitVec 8) (b : Bool) : statusHalt (withErr st b) = statusHalt st := by
  revert st b; decide

@[simp] theorem statusErrcode_withErr (st : BitVec 8) (b : Bool) : statusErrcode (withErr st b) = statusErrcode st := by
  revert st b; decide

@[simp] theorem statusReserved_withErr (st : BitVec 8) (b : Bool) : statusReserved (withErr st b) = statusReserved st := by
  revert st b; decide

@[simp] theorem statusErr_withHalt (st : BitVec 8) (b : Bool) : statusErr (withHalt st b) = statusErr st := by
  revert st b; decide

@[simp] theorem statusHalt_withHalt (st : BitVec 8) (b : Bool) : statusHalt (withHalt st b) = b := by
  revert st b; decide

@[simp] theorem statusErrcode_withHalt (st : BitVec 8) (b : Bool) : statusErrcode (withHalt st b) = statusErrcode st := by
  revert st b; decide

@[simp] theorem statusReserved_withHalt (st : BitVec 8) (b : Bool) : statusReserved (withHalt st b) = statusReserved st := by
  revert st b; decide

@[simp] theorem statusErr_withErrcode (st : BitVec 8) (c : BitVec 3) : statusErr (withErrcode st c) = statusErr st := by
  simp [statusErr, withErrcode]

@[simp] theorem statusHalt_withErrcode (st : BitVec 8) (c : BitVec 3) : statusHalt (withErrcode st c) = statusHalt st := by
  simp [statusHalt, withErrcode]

@[simp] theorem statusErrcode_withErrcode (st : BitVec 8) (c : BitVec 3) : statusErrcode (withErrcode st c) = c := by
  revert c st; decide

@[simp] theorem statusReserved_withErrcode (st : BitVec 8) (c : BitVec 3) :
    statusReserved (withErrcode st c) = statusReserved st := by
  revert c st; decide

/-- A STATUS value is its four fields (R42): 1 + 1 + 3 + 3 bits. -/
theorem status_ext {a b : BitVec 8} (he : statusErr a = statusErr b) (hh : statusHalt a = statusHalt b)
    (hc : statusErrcode a = statusErrcode b) (hr : statusReserved a = statusReserved b) : a = b := by
  simp only [statusErr, statusHalt, statusErrcode, statusReserved] at he hh hc hr
  apply BitVec.eq_of_getLsbD_eq
  intro i hi
  have hc' := fun j => congrArg (fun x : BitVec 3 => x.getLsbD j) hc
  have hr' := fun j => congrArg (fun x : BitVec 3 => x.getLsbD j) hr
  simp only [BitVec.getLsbD_extractLsb'] at hc' hr'
  interval_cases i
  · exact he
  · exact hh
  · simpa using hc' 0
  · simpa using hc' 1
  · simpa using hc' 2
  · simpa using hr' 0
  · simpa using hr' 1
  · simpa using hr' 2

@[simp] theorem raisedStatus_err (st : BitVec 8) (x : EpError) : statusErr (raisedStatus st x) = true := by
  cases x <;> simp [raisedStatus]

@[simp] theorem raisedStatus_halt (st : BitVec 8) (x : EpError) :
    statusHalt (raisedStatus st x) = (decide (x = .tableIndex) || statusHalt st) := by
  cases x <;> simp [raisedStatus] <;> split <;> simp

@[simp] theorem raisedStatus_errcode (st : BitVec 8) (x : EpError) :
    statusErrcode (raisedStatus st x) = if statusErr st then statusErrcode st else x.code := by
  cases x <;> simp [raisedStatus] <;> split <;> simp

@[simp] theorem raisedStatus_reserved (st : BitVec 8) (x : EpError) :
    statusReserved (raisedStatus st x) = statusReserved st := by
  cases x <;> simp [raisedStatus] <;> split <;> simp

/-- Everything the error entry does to the flags (R215). -/
@[simp] theorem Engine.raise_err (e : Engine) (x : EpError) : (e.raise x).err = true := by
  simp [Engine.raise, Engine.err]

@[simp] theorem Engine.raise_halted (e : Engine) (x : EpError) :
    (e.raise x).halted = (decide (x = .tableIndex) || e.halted) := by
  simp [Engine.raise, Engine.halted]

/-- The error entry writes STATUS only. -/
theorem Engine.raise_eq (e : Engine) (x : EpError) : e.raise x = { e with status := raisedStatus e.status x } := rfl

@[simp] theorem Engine.acknowledge_halted (e : Engine) : e.acknowledge.halted = e.halted := by
  simp [Engine.acknowledge, Engine.halted]

/-- Acknowledging writes STATUS only. -/
theorem Engine.acknowledge_eq (e : Engine) :
    e.acknowledge = { e with status := withErrcode (withErr e.status false) 0 } := rfl

section raise_fields
variable (e : Engine) (x : EpError)

@[simp] theorem Engine.raise_aesS : (e.raise x).aesS = e.aesS := (rfl)
@[simp] theorem Engine.raise_aesK : (e.raise x).aesK = e.aesK := (rfl)
@[simp] theorem Engine.raise_aesO : (e.raise x).aesO = e.aesO := (rfl)
@[simp] theorem Engine.raise_gfA : (e.raise x).gfA = e.gfA := (rfl)
@[simp] theorem Engine.raise_gfB : (e.raise x).gfB = e.gfB := (rfl)
@[simp] theorem Engine.raise_gfP : (e.raise x).gfP = e.gfP := (rfl)
@[simp] theorem Engine.raise_desR : (e.raise x).desR = e.desR := (rfl)
@[simp] theorem Engine.raise_desRk : (e.raise x).desRk = e.desRk := (rfl)
@[simp] theorem Engine.raise_desF : (e.raise x).desF = e.desF := (rfl)
@[simp] theorem Engine.raise_desKey : (e.raise x).desKey = e.desKey := (rfl)
@[simp] theorem Engine.raise_desK1 : (e.raise x).desK1 = e.desK1 := (rfl)
@[simp] theorem Engine.raise_desK2 : (e.raise x).desK2 = e.desK2 := (rfl)
@[simp] theorem Engine.raise_desPt : (e.raise x).desPt = e.desPt := (rfl)
@[simp] theorem Engine.raise_desCt : (e.raise x).desCt = e.desCt := (rfl)
@[simp] theorem Engine.raise_permSrc : (e.raise x).permSrc = e.permSrc := (rfl)
@[simp] theorem Engine.raise_permSrclen : (e.raise x).permSrclen = e.permSrclen := (rfl)
@[simp] theorem Engine.raise_permTlen : (e.raise x).permTlen = e.permTlen := (rfl)
@[simp] theorem Engine.raise_permOut : (e.raise x).permOut = e.permOut := (rfl)
@[simp] theorem Engine.raise_permOlen : (e.raise x).permOlen = e.permOlen := (rfl)
@[simp] theorem Engine.raise_permTbl : (e.raise x).permTbl = e.permTbl := (rfl)

end raise_fields

section acknowledge_fields
variable (e : Engine)

@[simp] theorem Engine.acknowledge_aesS : e.acknowledge.aesS = e.aesS := (rfl)
@[simp] theorem Engine.acknowledge_aesK : e.acknowledge.aesK = e.aesK := (rfl)
@[simp] theorem Engine.acknowledge_aesO : e.acknowledge.aesO = e.aesO := (rfl)
@[simp] theorem Engine.acknowledge_gfA : e.acknowledge.gfA = e.gfA := (rfl)
@[simp] theorem Engine.acknowledge_gfB : e.acknowledge.gfB = e.gfB := (rfl)
@[simp] theorem Engine.acknowledge_gfP : e.acknowledge.gfP = e.gfP := (rfl)
@[simp] theorem Engine.acknowledge_desR : e.acknowledge.desR = e.desR := (rfl)
@[simp] theorem Engine.acknowledge_desRk : e.acknowledge.desRk = e.desRk := (rfl)
@[simp] theorem Engine.acknowledge_desF : e.acknowledge.desF = e.desF := (rfl)
@[simp] theorem Engine.acknowledge_desKey : e.acknowledge.desKey = e.desKey := (rfl)
@[simp] theorem Engine.acknowledge_desK1 : e.acknowledge.desK1 = e.desK1 := (rfl)
@[simp] theorem Engine.acknowledge_desK2 : e.acknowledge.desK2 = e.desK2 := (rfl)
@[simp] theorem Engine.acknowledge_desPt : e.acknowledge.desPt = e.desPt := (rfl)
@[simp] theorem Engine.acknowledge_desCt : e.acknowledge.desCt = e.desCt := (rfl)
@[simp] theorem Engine.acknowledge_permSrc : e.acknowledge.permSrc = e.permSrc := (rfl)
@[simp] theorem Engine.acknowledge_permSrclen : e.acknowledge.permSrclen = e.permSrclen := (rfl)
@[simp] theorem Engine.acknowledge_permTlen : e.acknowledge.permTlen = e.permTlen := (rfl)
@[simp] theorem Engine.acknowledge_permOut : e.acknowledge.permOut = e.permOut := (rfl)
@[simp] theorem Engine.acknowledge_permOlen : e.acknowledge.permOlen = e.permOlen := (rfl)
@[simp] theorem Engine.acknowledge_permTbl : e.acknowledge.permTbl = e.permTbl := (rfl)

end acknowledge_fields

end Sys2Proof.Machine
end

