-- ==== Sys2Proof/Laws/Ops.lean ====
section
/-! SUPPORT. Laws/Ops: the register id space (R21), one register's read after another's write (R53, R61), and everything
each shared operation can do. -/

namespace Sys2Proof.Machine

/-- The id of a register names that register (R21). -/
@[simp] theorem Reg.ofId_id (r : Reg) : Reg.ofId r.id = some r := by
  cases r with
  | permTbl i => revert i; decide
  | _ => rfl

/-- An id names the register whose id it is. -/
theorem Reg.id_of_ofId {id : RegId} {r : Reg} (h : Reg.ofId id = some r) : r.id = id := by
  revert r; revert id; decide

/-- Reading the register just written: the value, where it fits (R61). -/
theorem Engine.get_set_same (e : Engine) (r : Reg) (v : Word) (h : v.toNat < 2 ^ r.width) : (e.set r v).get r = v := by
  cases r <;> simp only [Engine.set, Engine.get, Reg.width, Config.idxW, Vector.getElem_set_self] at h ⊢
  all_goals
    apply BitVec.eq_of_toNat_eq
    simp only [BitVec.toNat_setWidth]
    try omega

/-- Writing one register never changes another (R53). -/
theorem Engine.get_set_of_ne (e : Engine) (r r' : Reg) (v : Word) (h : r' ≠ r) : (e.set r v).get r' = e.get r' := by
  cases r with
  | permTbl i =>
    cases r' with
    | permTbl j =>
      have hij : i.val ≠ j.val := fun he => h (by rw [Fin.ext he])
      simp [Engine.set, Engine.get, hij]
    | _ => rfl
  | _ => cases r' <;> first | rfl | exact absurd rfl h

/-- The error entry leaves every register but STATUS (R215). -/
theorem Engine.get_raise (e : Engine) (x : EpError) (r : Reg) (h : r ≠ .status) : (e.raise x).get r = e.get r := by
  cases r <;> first | rfl | exact absurd rfl h

section updates
variable (e : Engine) {r : Reg}

/-! What a register's read gives after each named write: the registers not written read as before. -/

theorem Engine.get_withStatus {st : BitVec 8} (h : r ≠ .status) : (e.withStatus st).get r = e.get r := by
  cases r <;> first | rfl | exact absurd rfl h

theorem Engine.get_withAesO {v : BitVec 128} (h : r ≠ .aesO) : (e.withAesO v).get r = e.get r := by
  cases r <;> first | rfl | exact absurd rfl h

theorem Engine.get_withGfP {v : BitVec 8} (h : r ≠ .gfP) : (e.withGfP v).get r = e.get r := by
  cases r <;> first | rfl | exact absurd rfl h

theorem Engine.get_withDesF {v : BitVec 32} (h : r ≠ .desF) : (e.withDesF v).get r = e.get r := by
  cases r <;> first | rfl | exact absurd rfl h

theorem Engine.get_withDesKeys {k1 k2 : BitVec 48} (h1 : r ≠ .desK1) (h2 : r ≠ .desK2) :
    (e.withDesKeys k1 k2).get r = e.get r := by
  cases r <;> first | rfl | exact absurd rfl h1 | exact absurd rfl h2

theorem Engine.get_withDesCt {v : BitVec 64} (h : r ≠ .desCt) : (e.withDesCt v).get r = e.get r := by
  cases r <;> first | rfl | exact absurd rfl h

theorem Engine.get_withPermOut {v : BitVec 64} {m : BitVec 7} (h1 : r ≠ .permOut) (h2 : r ≠ .permOlen) :
    (e.withPermOut v m).get r = e.get r := by
  cases r <;> first | rfl | exact absurd rfl h1 | exact absurd rfl h2

end updates

/-- What a WRITE can do (R61): nothing, an error entry, or the write of one host-RW register. -/
theorem Engine.hostWrite_cases (e : Engine) (id : RegId) (v : Word) :
    (e.halted = true ∧ e.hostWrite id v = e) ∨
    (e.halted = false ∧ e.hostWrite id v = e.raise .badAccess ∧ ∀ r, Reg.ofId id = some r → r.hostWritable = false) ∨
    (e.halted = false ∧ ∃ r, Reg.ofId id = some r ∧ r.hostWritable = true ∧
      ((2 ^ r.width ≤ v.toNat ∧ e.hostWrite id v = e.raise .length) ∨
       (v.toNat < 2 ^ r.width ∧ e.hostWrite id v = e.set r v))) := by
  cases hh : e.halted with
  | true => exact .inl ⟨rfl, by simp [Engine.hostWrite, hh]⟩
  | false =>
    cases ho : Reg.ofId id with
    | none => exact .inr (.inl ⟨rfl, by simp [Engine.hostWrite, hh, ho], by simp⟩)
    | some r =>
      cases hw : r.hostWritable with
      | false => exact .inr (.inl ⟨rfl, by simp [Engine.hostWrite, hh, ho, hw], by rintro _ ⟨⟩; exact hw⟩)
      | true =>
        refine .inr (.inr ⟨rfl, r, rfl, hw, ?_⟩)
        by_cases hv : 2 ^ r.width ≤ v.toNat
        · exact .inl ⟨hv, by simp [Engine.hostWrite, hh, ho, hw, hv]⟩
        · exact .inr ⟨by omega, by simp [Engine.hostWrite, hh, ho, hw, hv]⟩

/-- What READ returns (R62). -/
theorem Engine.hostRead_of_ofId {e : Engine} {id : RegId} {r : Reg} (h : Reg.ofId id = some r) :
    e.hostRead id = e.get r := by simp [Engine.hostRead, h]

/-- The frame of a command when the engine runs (R64). -/
theorem command_running {s : State} (h : s.engine.halted = false) (rule : Engine → Engine) :
    command s rule = .next { s with engine := rule s.engine } := by simp [command, h]

/-- The frame of a command under HALT (R63). -/
theorem command_halted {s : State} (h : s.engine.halted = true) (rule : Engine → Engine) :
    command s rule = .next s := by simp [command, h]

/-- Everything a command can do: it answers next, on the engine only. -/
theorem command_next {s t : State} {rule : Engine → Engine} (h : command s rule = .next t) :
    t = { s with engine := if s.engine.halted then s.engine else rule s.engine } := by
  cases hh : s.engine.halted
  · rw [command_running hh] at h; simpa using h.symm
  · rw [command_halted hh] at h; simpa using h.symm

end Sys2Proof.Machine
end

