-- ==== Sys2Proof/Laws/Exec.lean ====
section
/-! SUPPORT. Laws/Exec: each command is the shared frame around one rule from engine to engine; what a rule can do to the
engine is said once here. -/

namespace Sys2Proof.Machine

/-- The rule of each command, as its meaning hands it to `command`. -/
def ruleOf : Instr → Engine → Engine
  | .nop => id
  | .clrerr => Engine.acknowledge
  | .subbytes => fun e => e.withAesO (pack (subBytes (bytes e.aesS)))
  | .shiftrows => fun e => e.withAesO (pack (shiftRows (bytes e.aesS)))
  | .mixcols => fun e => e.withAesO (pack (mixColumns (bytes e.aesS)))
  | .addrkey => fun e => e.withAesO (e.aesS ^^^ e.aesK)
  | .aesround => fun e => e.withAesO (pack (mixColumns (shiftRows (subBytes (bytes e.aesS)))) ^^^ e.aesK)
  | .gfmul => fun e => e.withGfP (gfMul e.gfA e.gfB)
  | .desf => fun e => e.withDesF (feistelReg e.desR e.desRk)
  | .dessbox => fun e => e.withDesF (sboxReg e.desRk)
  | .desks => fun e => e.withDesKeys (roundKeys e.desKey).1 (roundKeys e.desKey).2
  | .des2enc => fun e =>
    (e.withDesKeys (roundKeys e.desKey).1 (roundKeys e.desKey).2).withDesCt (des2Reg e.desPt e.desKey)
  | .permUsr => permUsr
  | .permIp => permRom 64 tIP
  | .permFp => permRom 64 tFP
  | .permE => permRom 32 tE
  | .permP => permRom 32 tP
  | .permPc2 => permRom 56 tPC2

/-- Every command is the frame around its rule (R64). -/
theorem exec_eq_command (i : Instr) (s : State) : exec i s = command s (ruleOf i) := by cases i <;> rfl

/-- A command when the engine runs: its rule, on the engine only (R64). -/
theorem exec_running {s : State} (h : s.engine.halted = false) (i : Instr) :
    exec i s = .next { s with engine := ruleOf i s.engine } := by rw [exec_eq_command, command_running h]

/-- A command under HALT: nothing (R63). -/
theorem exec_halted {s : State} (h : s.engine.halted = true) (i : Instr) : exec i s = .next s := by
  rw [exec_eq_command, command_halted h]

/-- What a ROM-table command can do (R147): an error entry LENGTH, or the outputs. -/
theorem permRom_cases (n : Nat) (T : List Nat) (e : Engine) :
    (permRom n T e = e.raise .length ∧ (e.permSrclen.toNat ≠ n ∨ srcTooLong e = true)) ∨
    (permRom n T e = permOutput e n T ∧ e.permSrclen.toNat = n ∧ srcTooLong e = false) := by
  unfold permRom
  split
  · exact .inl ⟨rfl, .inl ‹_›⟩
  · split
    · exact .inl ⟨rfl, .inr ‹_›⟩
    · exact .inr ⟨rfl, by simp_all, by simp_all⟩

/-- What PERM.USR can do (R144, R145, R146): an error entry LENGTH, an error entry TABLE_INDEX, or the outputs. -/
theorem permUsr_cases (e : Engine) :
    (permUsr e = e.raise .length ∧ (usrLengthBad e = true ∨ srcTooLong e = true)) ∨
    (permUsr e = e.raise .tableIndex ∧ usrLengthBad e = false ∧ srcTooLong e = false ∧ tableIndexBad e = true) ∨
    (permUsr e = permOutput e e.permSrclen.toNat e.userTable ∧
      usrLengthBad e = false ∧ srcTooLong e = false ∧ tableIndexBad e = false) := by
  unfold permUsr
  cases usrLengthBad e <;> cases srcTooLong e <;> cases tableIndexBad e <;> simp

/-- What a PERM command can do (R146, R147, R207): an error entry LENGTH, for PERM.USR an error entry TABLE_INDEX, or the two
outputs and nothing else. -/
theorem permCommand_cases {i : Instr} (hi : i ∈ [.permUsr, .permIp, .permFp, .permE, .permP, .permPc2]) (e : Engine) :
    ruleOf i e = e.raise .length ∨ (i = .permUsr ∧ ruleOf i e = e.raise .tableIndex) ∨
      ∃ v m, ruleOf i e = e.withPermOut v m := by
  have rom : ∀ n T, permRom n T e = e.raise .length ∨ ∃ v m, permRom n T e = e.withPermOut v m := fun n T =>
    (permRom_cases n T e).imp (fun h => h.1) fun h => ⟨_, _, h.1⟩
  simp only [List.mem_cons, List.not_mem_nil, or_false] at hi
  rcases hi with rfl | rfl | rfl | rfl | rfl | rfl
  · rcases permUsr_cases e with ⟨h, -⟩ | ⟨h, -⟩ | ⟨h, -⟩
    · exact .inl h
    · exact .inr (.inl ⟨rfl, h⟩)
    · exact .inr (.inr ⟨_, _, h⟩)
  all_goals exact (rom _ _).imp id fun h => .inr h

/-- The table of PERM.USR has `PERM_TLEN` entries when the length check passes (R36). -/
theorem userTable_length {e : Engine} (h : usrLengthBad e = false) : e.userTable.length = e.permTlen.toNat := by
  have hm : e.permTlen.toNat ≤ 64 := Nat.not_lt.mp (of_decide_eq_false (Bool.or_eq_false_iff.mp h).2)
  simp [Engine.userTable, hm]

end Sys2Proof.Machine
end

