-- ==== Sys2Proof/Laws/Gf256.lean ====
section
/-! SUPPORT. Laws/Gf256: the multiplier of rule R106 as a sum of eight terms, and induction over the bytes as a space spanned by
the eight single-bit bytes. -/

namespace Sys2Proof.Machine

/-- The local `a` after one iteration of rule R106: multiplication by x. -/
def xtime (a : Byte) : Byte := if a.getLsbD 7 then (a <<< 1) ^^^ gfPolyLow else a <<< 1

/-- `x` when the bit is set, 0 otherwise: what one iteration adds to the accumulator. -/
def sel (c : Bool) (x : Byte) : Byte := if c then x else 0

@[simp] theorem sel_zero (c : Bool) : sel c 0 = 0 := by cases c <;> rfl

theorem sel_xor (c : Bool) (x y : Byte) : sel c (x ^^^ y) = sel c x ^^^ sel c y := by cases c <;> simp [sel]

theorem sel_bxor (c d : Bool) (x : Byte) : sel (Bool.xor c d) x = sel c x ^^^ sel d x := by
  cases c <;> cases d <;> simp [sel]

/-- One iteration of rule R106 by its three local values. -/
theorem gfStep_eq (t : GfLocals) :
    gfStep t = { p := t.p ^^^ sel (t.b.getLsbD 0) t.a, a := xtime t.a, b := t.b >>> 1 } := by
  simp only [gfStep, xtime, sel]
  cases t.b.getLsbD 0 <;> simp

/-- `gf_mul(a, b)` adds the multiples x^i a for the bits i of b (R106). -/
theorem gfMul_eq (a b : Byte) :
    gfMul a b = sel (b.getLsbD 0) a ^^^ sel (b.getLsbD 1) (xtime a) ^^^ sel (b.getLsbD 2) (xtime (xtime a))
      ^^^ sel (b.getLsbD 3) (xtime (xtime (xtime a))) ^^^ sel (b.getLsbD 4) (xtime (xtime (xtime (xtime a))))
      ^^^ sel (b.getLsbD 5) (xtime (xtime (xtime (xtime (xtime a)))))
      ^^^ sel (b.getLsbD 6) (xtime (xtime (xtime (xtime (xtime (xtime a))))))
      ^^^ sel (b.getLsbD 7) (xtime (xtime (xtime (xtime (xtime (xtime (xtime a))))))) := by
  simp [gfMul, gfLoop, gfStep_eq]

/-- Every property that holds of 0 and the eight single-bit bytes and is kept by exclusive-or holds of every byte. -/
theorem byte_induction {P : Byte → Prop} (zero : P 0) (xor : ∀ x y, P x → P y → P (x ^^^ y))
    (basis : ∀ i : Fin 8, P (1#8 <<< i.val)) (a : Byte) : P a := by
  have span : ∀ a : Byte, a = sel (a.getLsbD 0) (1#8 <<< 0) ^^^ sel (a.getLsbD 1) (1#8 <<< 1)
      ^^^ sel (a.getLsbD 2) (1#8 <<< 2) ^^^ sel (a.getLsbD 3) (1#8 <<< 3) ^^^ sel (a.getLsbD 4) (1#8 <<< 4)
      ^^^ sel (a.getLsbD 5) (1#8 <<< 5) ^^^ sel (a.getLsbD 6) (1#8 <<< 6) ^^^ sel (a.getLsbD 7) (1#8 <<< 7) := by decide
  have part : ∀ (c : Bool) (i : Fin 8), P (sel c (1#8 <<< i.val)) := by
    intro c i
    cases c
    · exact zero
    · exact basis i
  rw [span a]
  exact xor _ _ (xor _ _ (xor _ _ (xor _ _ (xor _ _ (xor _ _ (xor _ _ (part _ 0) (part _ 1)) (part _ 2)) (part _ 3))
    (part _ 4)) (part _ 5)) (part _ 6)) (part _ 7)

/-- Multiplication by x distributes over exclusive-or. -/
theorem xtime_xor (a b : Byte) : xtime (a ^^^ b) = xtime a ^^^ xtime b := by
  have h : ∀ c : Byte, xtime c = (c <<< 1) ^^^ sel (c.getLsbD 7) gfPolyLow := by
    intro c
    simp only [xtime, sel]
    cases c.getLsbD 7 <;> simp
  simp only [h, BitVec.getLsbD_xor, sel_bxor, BitVec.shiftLeft_xor_distrib]
  ac_rfl

end Sys2Proof.Machine
end

