-- ==== Sys2Proof/Laws/HostNotation.lean ====
section
/-! SUPPORT. Laws/HostNotation: what issuing each transaction does (R60 to R64) and how host programs compose (R92, R93). -/

namespace Sys2Proof.Machine

theorem issue_reset (s : State) : issue .reset s = .next { s with engine := Engine.reset, response := none } := rfl

theorem issue_write (s : State) (id : RegId) (v : Word) :
    issue (.write id v) s = .next { s with engine := s.engine.hostWrite id v, response := none } := rfl

theorem issue_read (s : State) (id : RegId) :
    issue (.read id) s = .next { s with response := some (s.engine.hostRead id) } := rfl

/-- Issuing the word of a command runs the command (R64). -/
theorem issue_command {s : State} (h : s.engine.halted = false) (i : Instr) :
    issue (.cmd (encode i)) s = .next { s with engine := ruleOf i s.engine, response := none } := by
  have hd : decode (encode i) = some i := by cases i <;> rfl
  simp only [issue, step, takeTransaction, transact, runCmd, hd]
  exact exec_running (by exact h) i

/-- One line after another: the second starts where the first ended. -/
theorem perform_seq {p q : HostProg} {s t : State} (h : p.perform s = .next t) : (p.seq q).perform s = q.perform t := by
  simp [HostProg.perform, h, andThen]

/-- Several transactions: the rest starts where the first ended. -/
theorem issueAll_cons {x : Transaction} {xs : List Transaction} {s t : State} (h : issue x s = .next t) :
    issueAll (x :: xs) s = issueAll xs t := by
  simp [issueAll, h, andThen]

end Sys2Proof.Machine
end

