-- ==== Sys2Proof/Laws/PerInstr.lean ====
section
/-! SUPPORT. Laws/PerInstr: statements made per command, about the command as syntax. -/

namespace Sys2Proof.Laws.RoundTrip

/-- A command is well-formed, and the decoder reads it back from its word, whatever bytes follow (R85, R87, R88). -/
def Statement (i : Instr) : Prop :=
  i.wf = true ∧ decode (encode i) = some i ∧ ∀ rest, decodeBytes (encode i :: rest) = .command i rest

theorem nop : Statement .nop := ⟨rfl, rfl, fun _ => rfl⟩
theorem clrerr : Statement .clrerr := ⟨rfl, rfl, fun _ => rfl⟩
theorem subbytes : Statement .subbytes := ⟨rfl, rfl, fun _ => rfl⟩
theorem shiftrows : Statement .shiftrows := ⟨rfl, rfl, fun _ => rfl⟩
theorem mixcols : Statement .mixcols := ⟨rfl, rfl, fun _ => rfl⟩
theorem addrkey : Statement .addrkey := ⟨rfl, rfl, fun _ => rfl⟩
theorem aesround : Statement .aesround := ⟨rfl, rfl, fun _ => rfl⟩
theorem gfmul : Statement .gfmul := ⟨rfl, rfl, fun _ => rfl⟩
theorem desf : Statement .desf := ⟨rfl, rfl, fun _ => rfl⟩
theorem dessbox : Statement .dessbox := ⟨rfl, rfl, fun _ => rfl⟩
theorem desks : Statement .desks := ⟨rfl, rfl, fun _ => rfl⟩
theorem des2enc : Statement .des2enc := ⟨rfl, rfl, fun _ => rfl⟩
theorem permUsr : Statement .permUsr := ⟨rfl, rfl, fun _ => rfl⟩
theorem permIp : Statement .permIp := ⟨rfl, rfl, fun _ => rfl⟩
theorem permFp : Statement .permFp := ⟨rfl, rfl, fun _ => rfl⟩
theorem permE : Statement .permE := ⟨rfl, rfl, fun _ => rfl⟩
theorem permP : Statement .permP := ⟨rfl, rfl, fun _ => rfl⟩
theorem permPc2 : Statement .permPc2 := ⟨rfl, rfl, fun _ => rfl⟩

end Sys2Proof.Laws.RoundTrip
end

