-- ==== Sys2Proof/Laws/Step.lean ====
section
/-! SUPPORT. Laws/Step: everything one step can do, once. -/

namespace Sys2Proof.Machine

/-- What a step can do to the engine when its transaction is `tr` (R60 to R64): the reset state; the WRITE; nothing for a READ;
for a CMD nothing under HALT, otherwise the rule of the decoded command or the error entry ILLEGAL_CMD. -/
def TransactionEffect (e : Engine) (tr : Transaction) (e' : Engine) : Prop :=
  match tr with
  | .reset => e' = Engine.reset
  | .write id v => e' = e.hostWrite id v
  | .read _ => e' = e
  | .cmd c => (e.halted = true ∧ e' = e) ∨
      (e.halted = false ∧ ((∃ i, decode c = some i ∧ e' = ruleOf i e) ∨ (decode c = none ∧ e' = e.raise .illegalCmd)))

/-- What a command word can do, as a whole state. -/
theorem runCmd_next {c : CmdWord} {s t : State} (h : runCmd c s = .next t) :
    t.pending = s.pending ∧ t.response = s.response ∧ TransactionEffect s.engine (.cmd c) t.engine := by
  cases hd : decode c with
  | some i =>
    simp only [runCmd, hd] at h
    cases hh : s.engine.halted
    · rw [exec_running hh] at h
      cases h
      exact ⟨rfl, rfl, .inr ⟨hh, .inl ⟨i, hd, rfl⟩⟩⟩
    · rw [exec_halted hh] at h
      cases h
      exact ⟨rfl, rfl, .inl ⟨hh, rfl⟩⟩
  | none =>
    simp only [runCmd, hd] at h
    cases hh : s.engine.halted
    · rw [command_running hh] at h
      cases h
      exact ⟨rfl, rfl, .inr ⟨hh, .inr ⟨hd, rfl⟩⟩⟩
    · rw [command_halted hh] at h
      cases h
      exact ⟨rfl, rfl, .inl ⟨hh, rfl⟩⟩

/-- Everything a step can do: nothing when no transaction is pending; otherwise the first one is taken and has its effect. -/
theorem step_cases {s t : State} (h : step s = .next t) :
    (s.pending = [] ∧ t = s) ∨
      ∃ tr rest, s.pending = tr :: rest ∧ t.pending = rest ∧ TransactionEffect s.engine tr t.engine := by
  cases hp : s.pending with
  | nil =>
    simp only [step, takeTransaction, hp] at h
    cases h
    exact .inl ⟨rfl, rfl⟩
  | cons tr rest =>
    simp only [step, takeTransaction, hp] at h
    refine .inr ⟨tr, rest, rfl, ?_⟩
    cases tr with
    | reset => cases h; exact ⟨rfl, rfl⟩
    | write id v => cases h; exact ⟨rfl, rfl⟩
    | read id => cases h; exact ⟨rfl, rfl⟩
    | cmd c =>
      obtain ⟨h1, -, h2⟩ := runCmd_next h
      exact ⟨h1, h2⟩

end Sys2Proof.Machine
end

