-- ==== Sys2Proof/Tests/Slice0.lean ====
section
/-! SUPPORT. Tests/Slice0: the model's own tests. The expected values come from the spec: the words from rule R88, the results from
spec/95_test_vectors.md (the vector's id stands at the test) or from the rule named there. After them, for every obligation
with hypotheses, a state and operands that meet all of them together. -/

namespace Sys2Proof.Tests

open Sys2Proof.Machine

/-! ## Helpers -/

/-- A machine whose engine is `e`. -/
def onEngine (e : Engine) : State := { State.reset with engine := e }

/-- The engine a next state holds. -/
def engineAfter (o : Host.Outcome State Fault Refusal) : Engine :=
  match o with
  | .next s => s.engine
  | .fault _ => Engine.reset
  | .refused _ => Engine.reset

/-- One command on an engine. -/
def run (i : Instr) (e : Engine) : Engine := engineAfter (exec i (onEngine e))

/-- One step whose transaction is `t`. -/
def takes (t : Transaction) (e : Engine) : Engine := engineAfter (step { onEngine e with pending := [t] })

/-- The inputs of V-PERM-1: n = 8, the string "10110000", the reversing table of 8 entries. -/
def reversal : Engine :=
  { Engine.reset with
    permSrc := 0xB0, permSrclen := 8, permTlen := 8
    permTbl := ((((((((Vector.replicate 64 0#7).set 0 8).set 1 7).set 2 6).set 3 5).set 4 4).set 5 3).set 6 2).set 7 1 }

/-- The inputs of a ROM-table command. -/
def source (n : BitVec 7) (v : BitVec 64) : Engine := { Engine.reset with permSrclen := n, permSrc := v }

/-- The engine halted by a TABLE_INDEX error from reset (STATUS 0x13). -/
def haltedEngine : Engine := { Engine.reset with status := 0x13 }

/-! ## Well-formedness: each check refuses an ill-formed term -/

theorem test_wf_table_length : permTableWf 8 3 [1, 2] = false := by decide
theorem test_wf_table_zero_entry : permTableWf 8 2 [0, 1] = false := by decide
theorem test_wf_table_entry_above_source : permTableWf 8 2 [1, 9] = false := by decide
theorem test_wf_table_good : permTableWf 8 2 [1, 8] = true := by decide
theorem test_wf_schedule_rounds : shiftScheduleWf [1] = false := by decide
theorem test_wf_schedule_range : shiftScheduleWf [0, 28] = false := by decide
theorem test_wf_aes_rows : aesSboxWf [[0x63]] = false := by decide
theorem test_wf_mix_coefficient : mixMatrixWf [[4, 3, 1, 1], [1, 2, 3, 1], [1, 1, 2, 3], [3, 1, 1, 2]] = false := by decide
theorem test_wf_des_bank : desSboxWf [[[16]]] = false := by decide
theorem test_wf_every_instr : ∀ i ∈ Instr.all, i.wf = true := by decide

/-! ## Decoding: words written out from rule R88 -/

theorem test_decode_nop : decode 0b00000000#8 = some .nop := by decide
theorem test_decode_clrerr : decode 0b00000001#8 = some .clrerr := by decide
theorem test_decode_subbytes : decode 0b00010000#8 = some .subbytes := by decide
theorem test_decode_shiftrows : decode 0b00010001#8 = some .shiftrows := by decide
theorem test_decode_mixcols : decode 0b00010010#8 = some .mixcols := by decide
theorem test_decode_addrkey : decode 0b00010011#8 = some .addrkey := by decide
theorem test_decode_aesround : decode 0b00010100#8 = some .aesround := by decide
theorem test_decode_gfmul : decode 0b00100000#8 = some .gfmul := by decide
theorem test_decode_desf : decode 0b00110000#8 = some .desf := by decide
theorem test_decode_dessbox : decode 0b00110001#8 = some .dessbox := by decide
theorem test_decode_desks : decode 0b00110010#8 = some .desks := by decide
theorem test_decode_des2enc : decode 0b00110011#8 = some .des2enc := by decide
theorem test_decode_perm_usr : decode 0b01000000#8 = some .permUsr := by decide
theorem test_decode_perm_ip : decode 0b01000001#8 = some .permIp := by decide
theorem test_decode_perm_fp : decode 0b01000010#8 = some .permFp := by decide
theorem test_decode_perm_e : decode 0b01000011#8 = some .permE := by decide
theorem test_decode_perm_p : decode 0b01000100#8 = some .permP := by decide
theorem test_decode_perm_pc2 : decode 0b01000101#8 = some .permPc2 := by decide
theorem test_decode_illegal_by_name : decodeBytes [0x15#8, 0x00#8] = .illegalCmd 0x15#8 := by decide
theorem test_decode_no_word : decodeBytes [] = .noWord := by decide
theorem test_decode_table_word : decodeTableWord 8 0x45 = some .permPc2 := by decide
theorem test_decode_table_word_illegal : decodeTableWord 8 0x46 = none := by decide
/-- No two rows of the opcode table match one word (R87). -/
theorem test_opcode_rows_disjoint : opcodeTable.Pairwise fun a b => a.code &&& b.mask ≠ b.code := by decide

/-! ## Commands -/

/-- V-CTL-5 -/
theorem test_nop_keeps_error : run .nop { Engine.reset with status := 0x0D } = { Engine.reset with status := 0x0D } := by decide
/-- V-CTL-2 -/
theorem test_clrerr_clears : run .clrerr { Engine.reset with status := 0x05 } = Engine.reset := by decide
/-- V-CTL-4 -/
theorem test_clrerr_halted : run .clrerr haltedEngine = haltedEngine := by decide
/-- V-AES-2 -/
theorem test_subbytes : (run .subbytes { Engine.reset with aesS := 0x193DE3BEA0F4E22B9AC68D2AE9F84808 }).aesO
    = 0xD42711AEE0BF98F1B8B45DE51E415230 := by decide
/-- V-AES-8 -/
theorem test_shiftrows : (run .shiftrows { Engine.reset with aesS := 0x000102030405060708090A0B0C0D0E0F }).aesO
    = 0x00050A0F04090E03080D02070C01060B := by decide
/-- V-AES-11 -/
theorem test_mixcols : (run .mixcols { Engine.reset with aesS := 0xDB135345F20A225C01010101C6C6C6C6 }).aesO
    = 0x8E4DA1BC9FDC589D01010101C6C6C6C6 := by decide
/-- V-AES-19c -/
theorem test_mixcols_overflow : (run .mixcols { Engine.reset with aesS := 0x80 }).aesO = 0x80809B1B := by decide
/-- V-AES-10 -/
theorem test_addrkey : (run .addrkey { Engine.reset with
    aesS := 0x000102030405060708090A0B0C0D0E0F, aesK := 0xFFFFFFFFFFFFFFFFFFFFFFFFFFFFFFFF }).aesO
    = 0xFFFEFDFCFBFAF9F8F7F6F5F4F3F2F1F0 := by decide
/-- V-AES-6 -/
theorem test_aesround : (run .aesround { Engine.reset with
    aesS := 0x00102030405060708090A0B0C0D0E0F0, aesK := 0xD6AA74FDD2AF72FADAA678F1D6AB76FE }).aesO
    = 0x89D810E8855ACE682D1843D8CB128FE4 := by decide
/-- V-AES-19g -/
theorem test_aesround_diagonal : (run .aesround { Engine.reset with
    aesS := 0x00112233445566778899AABBCCDDEEFF, aesK := 0x0F0E0D0C0B0A09080706050403020100 }).aesO
    = 0x6C77EBD5FF6DF27EAA0039F0D1E98BA3 := by decide
/-- V-GF-6 -/
theorem test_gfmul_overflow : (run .gfmul { Engine.reset with gfA := 0x02, gfB := 0x87 }).gfP = 0x15 := by decide
/-- V-GF-1 -/
theorem test_gfmul : (run .gfmul { Engine.reset with gfA := 0x57, gfB := 0x83 }).gfP = 0xC1 := by decide
/-- V-F-2 -/
theorem test_desf : (run .desf { Engine.reset with desR := 0xEF4A6544, desRk := 0x79AED9DBC9E5 }).desF
    = 0x3CAB87A3 := by decide
/-- V-SB-8 -/
theorem test_dessbox : (run .dessbox { Engine.reset with desRk := 0x2A }).desF = 0xEFA72C4C := by decide
/-- V-SB-6: first and last bit of a block both feed the row -/
theorem test_dessbox_row : (run .dessbox { Engine.reset with desRk := 0x840000000000 }).desF = 0xFFA72C4D := by decide
/-- V-KS-2 -/
theorem test_desks : roundKeys (0x201EE25FD6FDFF) = (0xE0022BFFFD5B, 0x78B2A2FF9FFF) := by decide
/-- V-KS-8 -/
theorem test_desks_last_bit : run .desks { Engine.reset with desKey := 1 }
    = { Engine.reset with desKey := 1, desK1 := 0x40000, desK2 := 0 } := by decide
/-- V-DES-1: the document's scenario -/
theorem test_des2enc : (run .des2enc { Engine.reset with desPt := 0xB30FF216F434BF2E, desKey := 0x201EE25FD6FDFF }).desCt
    = 0x8BD38C82166386FD := by decide
/-- V-DES-1: the round keys are written too -/
theorem test_des2enc_keys : (run .des2enc { Engine.reset with desPt := 0xB30FF216F434BF2E, desKey := 0x201EE25FD6FDFF }).desK2
    = 0x78B2A2FF9FFF := by decide
/-- V-PERM-1 -/
theorem test_perm_usr : run .permUsr reversal = { reversal with permOut := 0x0D, permOlen := 8 } := by decide
/-- V-ERR-17 -/
theorem test_perm_usr_bad_entry : run .permUsr { reversal with permTbl := reversal.permTbl.set 3 9 }
    = { reversal with permTbl := reversal.permTbl.set 3 9, status := 0x13 } := by decide
/-- V-PERM-12 -/
theorem test_perm_ip : (run .permIp (source 64 0x8000000000000000)).permOut = 0x0000000001000000 := by decide
/-- V-ERR-12 -/
theorem test_perm_ip_length : run .permIp (source 32 0x0123456789ABCDEF)
    = { source 32 0x0123456789ABCDEF with status := 0x0D } := by decide
/-- V-PERM-15 -/
theorem test_perm_fp : (run .permFp (source 64 1)).permOut = 0x0200000000000000 := by decide
/-- V-PERM-20 -/
theorem test_perm_e : (run .permE (source 32 0x12345678)).permOut = 0x0A41A82AC3F0 := by decide
/-- V-ERR-13 -/
theorem test_perm_e_source_too_long : (run .permE (source 32 0x100000000)).status = 0x0D := by decide
/-- V-PERM-25 -/
theorem test_perm_p : (run .permP (source 32 0x12345678)).permOut = 0x6E34140E := by decide
/-- V-PERM-30 -/
theorem test_perm_pc2 : (run .permPc2 (source 56 1)).permOut = 0x100 := by decide
/-- V-PERM-30: PERM_OLEN is 48 -/
theorem test_perm_pc2_length : (run .permPc2 (source 56 1)).permOlen = 48 := by decide

/-! ## Transactions and errors -/

/-- V-ERR-1 -/
theorem test_illegal_word : takes (.cmd 0xFF) Engine.reset = { Engine.reset with status := 0x05 } := by decide
/-- V-ERR-7: BAD_ACCESS comes before LENGTH -/
theorem test_bad_access_first : takes (.write 0x0A 0x100) Engine.reset = { Engine.reset with status := 0x09 } := by decide
/-- V-ERR-8 -/
theorem test_write_too_wide : takes (.write 0x08 0x100) Engine.reset = { Engine.reset with status := 0x0D } := by decide
/-- V-MEM-5 -/
theorem test_write_table : (takes (.write 0x40 127) Engine.reset).permTbl[0] = 127 := by decide
/-- V-ERR-15: the first code stays, HALT is set -/
theorem test_halt_keeps_code : (run .permUsr
    { Engine.reset with permSrclen := 4, permSrc := 0xA, permTlen := 1, status := 0x0D }).status = 0x0F := by decide
/-- V-ERR-18 -/
theorem test_halt_ignores_write : takes (.write 0x43 5) haltedEngine = haltedEngine := by decide
/-- V-MEM-10 -/
theorem test_reset_from_halt : takes .reset haltedEngine = Engine.reset := by decide
/-- P2: a READ returns the register -/
theorem test_read : step { onEngine { Engine.reset with permOut := 0xCC00CCFFF0AAF0AA } with pending := [.read 0x23] }
    = .next { onEngine { Engine.reset with permOut := 0xCC00CCFFF0AAF0AA } with response := some 0xCC00CCFFF0AAF0AA } := rfl
theorem test_first_step_runs_the_word : step (State.reset.withFetchWord 8 0x20) = exec .gfmul State.reset := rfl

/-! ## Witnesses: the hypotheses of the obligations can be met -/

theorem test_witness_WriteStoresOneRegisterOrRaises :
    haltedEngine.halted = true ∧ Engine.reset.halted = false ∧
    Reg.ofId 0x03 = none ∧ Reg.ofId 0x80 = none ∧ (Reg.ofId 0x02 = some .aesO ∧ Reg.aesO.hostWritable = false) ∧
    (Reg.ofId 0x08 = some .gfA ∧ Reg.gfA.hostWritable = true ∧ 2 ^ Reg.gfA.width ≤ (0x100 : Word).toNat ∧
      (0xFF : Word).toNat < 2 ^ Reg.gfA.width) ∧
    (Reg.ofId 0x7F = some (.permTbl 63) ∧ (Reg.permTbl 63).hostWritable = true ∧
      2 ^ (Reg.permTbl 63).width ≤ (128 : Word).toNat ∧ (127 : Word).toNat < 2 ^ (Reg.permTbl 63).width) ∧
    Reg.gfB ≠ Reg.gfA ∧ Reg.gfA ≠ Reg.status := by decide

theorem test_witness_RegisterMapFollowsTheTable :
    (⟨0x30, .status, 8, false⟩ : RegRow) ∈ regRows ∧ unmappedId 0x03 = true ∧ unmappedId 0x07 = true ∧
    unmappedId 0x08 = false ∧ unmappedId 0x3F = true ∧ unmappedId 0x40 = false ∧ unmappedId 0x7F = false ∧
    unmappedId 0x80 = true ∧ unmappedId 0xFF = true := by decide

theorem test_witness_ReadReturnsTheRegisterAndChangesNothing : unmappedId 0x1F = true ∧ unmappedId 0x31 = true := by decide

theorem test_witness_RegistersAreTheWholeEngine : ∀ r : Reg, haltedEngine.get r = haltedEngine.get r := fun _ => rfl

theorem test_witness_HaltIgnoresWritesAndCommands : (onEngine haltedEngine).engine.halted = true := by decide

theorem test_witness_StepRunsTheDecodedCommand : decode 0x00 = some .nop ∧ decode 0x45 = some .permPc2 := by decide

theorem test_witness_IllegalWordsRaiseIllegalCmd :
    Engine.reset.halted = false ∧ illegalWord 0x02 = true ∧ illegalWord 0x0F = true ∧ illegalWord 0x10 = false ∧
    illegalWord 0x14 = false ∧ illegalWord 0x15 = true ∧ illegalWord 0x46 = true ∧ illegalWord 0xFF = true ∧
    Reg.aesS ≠ Reg.status := by decide

theorem test_witness_DecodeAndEncodeAgree : Instr.permPc2.wf = true ∧ decode 0x45 = some .permPc2 := by decide

theorem test_witness_ErrorEntryRecordsTheFirstError :
    Engine.reset.err = false ∧ haltedEngine.err = true ∧ EpError.length ≠ EpError.tableIndex ∧ Reg.aesS ≠ Reg.status := by decide

theorem test_witness_LaterErrorsKeepTheFirstCode :
    ({ Engine.reset with status := 0x0D } : Engine).err = true ∧ EpError.badAccess ≠ EpError.tableIndex ∧
    ({ Engine.reset with status := 0x0D } : Engine).status = 0x0D := by decide

theorem test_witness_ClrerrClearsTheErrorOnly :
    (onEngine { Engine.reset with status := 0x0D }).engine.halted = false ∧ statusInv State.reset.engine.status ∧
    State.reset.engine.err = false ∧ (onEngine haltedEngine).engine.halted = true ∧
    (onEngine { Engine.reset with status := 0x0D }).engine.status = 0x0D ∧ (onEngine haltedEngine).engine.status = 0x13 := by
  unfold statusInv; decide

theorem test_witness_ClrerrUndoesARecoverableError :
    State.reset.engine.status = 0 ∧ EpError.length ≠ EpError.tableIndex := by decide

theorem test_witness_GfmulWritesTheProduct :
    (onEngine { Engine.reset with gfA := 0x57, gfB := 0x83 }).engine.halted = false := by decide

theorem test_witness_GfMulIsFieldMultiplication :
    (0x53 : Byte) ≠ 0 ∧ gfMul 0x53 0 = 0 ∧ gfMul 0x53 0xCA = 0x01 := by decide

theorem test_witness_SubBytesReplacesEveryByte :
    (onEngine { Engine.reset with aesS := 0xFF }).engine.halted = false ∧ 15 < 16 ∧
    (bytes 0xFF)[0] = (bytes 0xFF)[14] := by decide

theorem test_witness_AesSboxIsABijection : aesSbox 0x53 = aesSbox 0x53 := rfl

theorem test_witness_ShiftRowsRotatesRowRLeftByR : (onEngine { Engine.reset with aesS := 0x0F }).engine.halted = false := by decide

theorem test_witness_MixColumnsMultipliesEveryColumn :
    (onEngine { Engine.reset with aesS := 0x80 }).engine.halted = false := by decide

theorem test_witness_AddRoundKeyXorsTheKey :
    (onEngine { Engine.reset with aesS := 0xA, aesK := 0x5 }).engine.halted = false ∧ 0 < 16 ∧ 15 < 16 := by decide

theorem test_witness_AesRoundComposesTheFourStages :
    (onEngine { Engine.reset with aesS := 1 }).engine.halted = false := by decide

theorem test_witness_StagewiseRoundEqualsAesRound :
    State.reset.engine.halted = false ∧ ∃ t, exec .aesround State.reset = .next t := ⟨by decide, _, rfl⟩

theorem test_witness_OneFlippedBitChangesAWholeColumn : 127 < 128 := by decide

theorem test_witness_PermUsrPermutesByTheTableRam :
    (onEngine reversal).engine.halted = false ∧ reversal.permSrclen.toNat ≤ 64 ∧ reversal.permTlen.toNat ≤ 64 ∧
    reversal.permSrc.toNat < 2 ^ reversal.permSrclen.toNat ∧
    ∀ i : Fin 64, i.val < reversal.permTlen.toNat →
      1 ≤ (reversal.permTbl[i.val]).toNat ∧ (reversal.permTbl[i.val]).toNat ≤ reversal.permSrclen.toNat := by decide

theorem test_witness_PermCommandsCheckLengthsFirst :
    64 < ({ Engine.reset with permSrclen := 65 } : Engine).permSrclen.toNat ∧
    64 < ({ Engine.reset with permTlen := 65 } : Engine).permTlen.toNat ∧
    2 ^ (source 4 0x1A).permSrclen.toNat ≤ (source 4 0x1A).permSrc.toNat ∧
    (⟨.permIp, 64, tIP⟩ : RomRow) ∈ romRows ∧ (source 32 0).permSrclen.toNat ≠ 64 ∧
    (onEngine (source 32 0)).engine.halted = false ∧ (source 64 0).permSrclen.toNat = 64 := by decide

theorem test_witness_PermUsrHaltsOnABadEntry :
    ((onEngine { reversal with permTbl := reversal.permTbl.set 3 9 }).engine.halted = false ∧
      3 < ({ reversal with permTbl := reversal.permTbl.set 3 9 } : Engine).permTlen.toNat ∧
      ({ reversal with permTbl := reversal.permTbl.set 3 9 } : Engine).permSrclen.toNat
        < (({ reversal with permTbl := reversal.permTbl.set 3 9 } : Engine).permTbl[3]).toNat ∧
      reversal.permSrc.toNat < 2 ^ reversal.permSrclen.toNat) ∧
    (({ Engine.reset with permTlen := 1 } : Engine).permSrclen = 0 ∧ ({ Engine.reset with permTlen := 1 } : Engine).permSrc = 0 ∧
      1 ≤ ({ Engine.reset with permTlen := 1 } : Engine).permTlen.toNat ∧
      1 ≤ ({ Engine.reset with permTlen := 64 } : Engine).permTlen.toNat ∧
      ({ Engine.reset with permTlen := 64 } : Engine).permTlen.toNat ≤ 64) ∧
    (Engine.reset.halted = false ∧ Engine.reset.permSrclen = 0 ∧ Engine.reset.permSrc = 0 ∧ Engine.reset.permTlen = 0) := by
  decide

theorem test_witness_PermUsrHaltsOnABadEntry_unexamined :
    (onEngine reversal).engine.permTlen.toNat ≤ (8 : Fin 64).val ∧ ∃ t, exec .permUsr (onEngine reversal) = .next t :=
  ⟨by decide, _, rfl⟩

theorem test_witness_RomPermCommandsPermuteByTheirTable :
    (⟨.permPc2, 56, tPC2⟩ : RomRow) ∈ romRows ∧ (onEngine (source 56 1)).engine.halted = false ∧
    (source 56 1).permSrclen.toNat = 56 ∧ (source 56 1).permSrc.toNat < 2 ^ 56 ∧ 47 < tPC2.length := by decide

theorem test_witness_IpAndFpAreMutualInverses : (List.replicate 64 true : BitString).length = 64 := by decide

theorem test_witness_DesksDerivesBothRoundKeys :
    (onEngine { Engine.reset with desKey := 1 }).engine.halted = false ∧ 0 < 48 ∧ 47 < 48 := by decide

theorem test_witness_RoundKeysCoincideOnUniformHalves :
    ((0x0000000FFFFFFF#56).extractLsb' 28 28).rotateLeft 1 = (0x0000000FFFFFFF#56).extractLsb' 28 28 ∧
    ((0x0000000FFFFFFF#56).extractLsb' 0 28).rotateLeft 1 = (0x0000000FFFFFFF#56).extractLsb' 0 28 := by decide

theorem test_witness_DessboxSubstitutesEightBlocks :
    (onEngine { Engine.reset with desRk := 1 }).engine.halted = false ∧ 0 < 8 ∧ 7 < 8 := by decide

theorem test_witness_DesfComputesTheRoundFunction :
    (onEngine { Engine.reset with desR := 1 }).engine.halted = false ∧ 47 < 48 ∧ 31 < 32 := by decide

theorem test_witness_StagewiseRoundFunctionEqualsDesf : State.reset.engine.halted = false := by decide

theorem test_witness_Des2encRunsTheTwoRoundCipher :
    (onEngine { Engine.reset with desPt := 1 }).engine.halted = false ∧ 0 < 64 ∧ 63 < 64 := by decide

theorem test_witness_HostCanInvertDes2enc :
    (List.replicate 64 true : BitString).length = 64 ∧ (List.replicate 56 false : BitString).length = 56 ∧
    des2Reg 0 0 = des2Reg 0 0 := by decide

theorem test_witness_CommandsWriteOnlyTheirOutputs :
    (∃ t, exec .des2enc State.reset = .next t) ∧ Reg.desF ∉ writeRegs .des2enc ∧ Reg.desF ≠ Reg.status ∧
    Reg.desCt ∈ writeRegs .des2enc := ⟨⟨_, rfl⟩, by decide, by decide, by decide⟩

/-- Each of the three outcomes of a PERM command occurs. -/
theorem test_witness_CommandsWriteOnlyTheirOutputs_perm :
    (run .permUsr reversal).status = reversal.status ∧ (run .permUsr reversal).permOlen ≠ reversal.permOlen ∧
    run .permIp (source 32 1) = (source 32 1).raise .length ∧
    run .permUsr { Engine.reset with permTlen := 1 } = ({ Engine.reset with permTlen := 1 } : Engine).raise .tableIndex := by
  decide

/-- The two engines differ in an entry at `PERM_TLEN` and in registers of other units. -/
theorem test_witness_CommandsDependOnlyOnTheirInputs :
    (onEngine reversal).engine.halted = false ∧
    reversal.status = ({ reversal with permTbl := reversal.permTbl.set 8 99, gfA := 1, permOut := 7 } : Engine).status ∧
    ∀ r ∈ readRegs reversal .permUsr,
      reversal.get r = ({ reversal with permTbl := reversal.permTbl.set 8 99, gfA := 1, permOut := 7 } : Engine).get r := by
  decide

theorem test_witness_CommandsAreIdempotent : ∃ t, exec .permUsr (onEngine reversal) = .next t := ⟨_, rfl⟩

theorem test_witness_StepKeepsTheEngineInvariant :
    State.reset.engine.Inv ∧ ∃ t, step { State.reset with pending := [.cmd 0xFF] } = .next t := by
  refine ⟨?_, _, rfl⟩
  unfold Engine.Inv statusInv permOutInv
  decide

theorem test_witness_HaltIsEnteredByPermUsrAndLeftByReset :
    (∃ t, step { onEngine haltedEngine with pending := [.reset] } = .next t ∧ haltedEngine.halted = true) ∧
    ∃ t, step { onEngine { Engine.reset with permTlen := 1 } with pending := [.cmd 0x40] } = .next t ∧
      Engine.reset.halted = false ∧ t.engine.halted = true :=
  ⟨⟨_, rfl, by decide⟩, _, rfl, by decide, by decide⟩

theorem test_witness_StepAlwaysEndsInANextState : State.reset.pending = [] := rfl

theorem test_witness_PseudoInstructionsMoveAndLoad :
    State.reset.engine.halted = false ∧ ([127, 1] : List Word).length ≤ 64 ∧
    (∀ t ∈ ([127, 1] : List Word), t.toNat < 128) ∧ (List.replicate 64 (1 : Word)).length ≤ 64 ∧
    Reg.aesS.hostWritable = true ∧ (State.reset.engine.get .aesO).toNat < 2 ^ Reg.aesS.width ∧
    (∀ i, Reg.aesS ≠ .permTbl i) ∧ Reg.aesS ≠ .permTlen := by
  refine ⟨by decide, by decide, by simp, by simp, by decide, by decide, (nofun), by decide⟩

end Sys2Proof.Tests
end

namespace Sys2Proof.Machine

/-! ## The layout of a block (R16, R67) -/

/-- Packing the bytes of a register gives the register back (R16). -/
theorem pack_bytes (v : BitVec 128) : pack (bytes v) = v := by
  apply BitVec.eq_of_getLsbD_eq
  intro k hk
  have hbit : 120 - 8 * (15 - k / 8) + k % 8 = k := by omega
  have hlt : k % 8 < 8 := Nat.mod_lt k (by decide)
  simp [getLsbD_pack _ hk, hbit, hlt]

/-- The bytes of a packed block are the block (R16). -/
theorem bytes_pack (m : StateMatrix) : bytes (pack m) = m := by
  apply Vector.ext
  intro i hi
  rw [bytes_getElem]
  apply BitVec.eq_of_getLsbD_eq
  intro j hj
  have hbyte : 15 - (120 - 8 * i + j) / 8 = i := by omega
  have hbit : (120 - 8 * i + j) % 8 = j := by omega
  simp [getLsbD_pack m (show 120 - 8 * i + j < 128 by omega), hbyte, hbit, hj]

/-- Settles O22: a bit of the register and a bit of its byte have the same place, read either way. -/
theorem blockLayoutIsColumnMajor : Obligations.BlockLayoutIsColumnMajor := by
  unfold Obligations.BlockLayoutIsColumnMajor
  exact ⟨pack_bytes, bytes_pack, fun v r c => bytes_getElem v (i := r.val + 4 * c.val) (by omega)⟩

/-! ## Every step ends in a next state (R7, R8, R250) -/

/-- A command always answers next: it is the frame `command` around its rule. -/
theorem exec_total (i : Instr) (s : State) : ∃ t, exec i s = .next t := by
  rw [exec_eq_command]
  exact ⟨_, rfl⟩

/-- A command word always answers next, decoded or not. -/
theorem runCmd_total (c : CmdWord) (s : State) : ∃ t, runCmd c s = .next t := by
  unfold runCmd
  cases decode c with
  | some i => exact exec_total i s
  | none => exact ⟨_, rfl⟩

theorem transact_total (tr : Transaction) (s : State) : ∃ t, transact tr s = .next t := by
  cases tr with
  | reset => exact ⟨_, rfl⟩
  | write id v => exact ⟨_, rfl⟩
  | read id => exact ⟨_, rfl⟩
  | cmd c => exact runCmd_total c s

/-- With no transaction pending a step changes nothing (R7). -/
theorem step_idle {s : State} (h : s.pending = []) : step s = .next s := by
  simp [step, takeTransaction, h]

theorem step_total (s : State) : ∃ t, step s = .next t := by
  cases hp : s.pending with
  | nil => exact ⟨s, step_idle hp⟩
  | cons tr rest =>
    simp only [step, takeTransaction, hp]
    exact transact_total tr _

/-- A step takes the first pending transaction and leaves the others (R8, R76). -/
theorem step_pending {s t : State} (h : step s = .next t) : t.pending = s.pending.tail := by
  obtain ⟨hp, rfl⟩ | ⟨tr, rest, hs, ht, -⟩ := step_cases h
  · rw [hp, List.tail_nil]
  · rw [hs, ht, List.tail_cons]

/-- Settles O54: no transaction and no command has an outcome other than a next state. -/
theorem stepAlwaysEndsInANextState : Obligations.StepAlwaysEndsInANextState := by
  unfold Obligations.StepAlwaysEndsInANextState
  refine ⟨fun s => ?_, exec_total, fun s => step_idle⟩
  obtain ⟨t, ht⟩ := step_total s
  exact ⟨t, ht, step_pending ht⟩

/-! ## A command depends on its inputs only (R9) -/

/-- Zero extension to the 128 bits of a READ loses nothing (R62). -/
theorem setWidth_128_inj {w : Nat} (hw : w ≤ 128) {x y : BitVec w} : x.setWidth 128 = y.setWidth 128 ↔ x = y := by
  refine ⟨fun h => ?_, congrArg _⟩
  have := congrArg (BitVec.setWidth w) h
  simpa [BitVec.setWidth_setWidth_of_le _ hw] using this

section agreement
variable {e e' : Engine}

/-- The table of PERM.USR depends on `PERM_TLEN` and on the entries below it only (R40, R145). -/
theorem userTable_congr (hlen : e.permTlen = e'.permTlen)
    (hent : ∀ i : Fin 64, i.val < e.permTlen.toNat → e.permTbl[i.val] = e'.permTbl[i.val]) :
    e.userTable = e'.userTable := by
  unfold Engine.userTable
  rw [← hlen]
  congr 1
  apply List.ext_getElem (by simp)
  intro i hi _
  obtain ⟨hm, h64⟩ : i < e.permTlen.toNat ∧ i < 64 := by simpa using hi
  simpa using hent ⟨i, h64⟩ hm

theorem srcTooLong_congr (hsrc : e.permSrc = e'.permSrc) (hn : e.permSrclen = e'.permSrclen) :
    srcTooLong e = srcTooLong e' := by
  rw [srcTooLong, srcTooLong, hsrc, hn]

/-- Two engines answer a command alike: the same error entry in both, or the same STATUS and the same value in each of the
registers `W`. `a` and `a'` are the engines after the command. -/
def AnswerAlike (W : List Reg) (e e' a a' : Engine) : Prop :=
  (∃ x : EpError, a = e.raise x ∧ a' = e'.raise x) ∨ (a.status = a'.status ∧ ∀ r ∈ W, a.get r = a'.get r)

/-- The outputs of a PERM command depend on `PERM_SRC`, the source length and the table. -/
theorem permOutput_alike (hst : e.status = e'.status) (hsrc : e.permSrc = e'.permSrc) (n : Nat) (T : List Nat) :
    AnswerAlike [.permOut, .permOlen] e e' (permOutput e n T) (permOutput e' n T) :=
  .inr (by simp [permOutput, Engine.get, hst, hsrc])

/-- A ROM-table command reads `PERM_SRC` and `PERM_SRCLEN` (R147). -/
theorem permRom_alike (hst : e.status = e'.status) (hsrc : e.permSrc = e'.permSrc) (hn : e.permSrclen = e'.permSrclen)
    (n : Nat) (T : List Nat) : AnswerAlike [.permOut, .permOlen] e e' (permRom n T e) (permRom n T e') := by
  unfold permRom
  rw [← hn, ← srcTooLong_congr hsrc hn]
  split
  · exact .inl ⟨_, rfl, rfl⟩
  · split
    · exact .inl ⟨_, rfl, rfl⟩
    · exact permOutput_alike hst hsrc n T

/-- PERM.USR reads `PERM_SRC`, the two lengths and its table (R144 to R146). -/
theorem permUsr_alike (hst : e.status = e'.status) (hsrc : e.permSrc = e'.permSrc) (hn : e.permSrclen = e'.permSrclen)
    (hm : e.permTlen = e'.permTlen) (hT : e.userTable = e'.userTable) :
    AnswerAlike [.permOut, .permOlen] e e' (permUsr e) (permUsr e') := by
  have hlen : usrLengthBad e = usrLengthBad e' := by rw [usrLengthBad, usrLengthBad, hn, hm]
  have hidx : tableIndexBad e = tableIndexBad e' := by rw [tableIndexBad, tableIndexBad, hT, hn]
  unfold permUsr
  rw [← hlen, ← srcTooLong_congr hsrc hn, ← hidx, ← hn, ← hT]
  split
  · exact .inl ⟨_, rfl, rfl⟩
  · split
    · exact .inl ⟨_, rfl, rfl⟩
    · split
      · exact .inl ⟨_, rfl, rfl⟩
      · exact permOutput_alike hst hsrc _ _

/-- Every command answers alike in two engines that agree on the registers its row reads and on STATUS (R9, R88): what the
register reads say about the fields is all its rule uses. -/
theorem ruleOf_alike (i : Instr) (hst : e.status = e'.status) (hr : ∀ r ∈ readRegs e i, e.get r = e'.get r) :
    AnswerAlike (writeRegs i) e e' (ruleOf i e) (ruleOf i e') := by
  cases i with
  | nop => exact .inr ⟨hst, by simp [writeRegs]⟩
  | clrerr => exact .inr (by simp [ruleOf, writeRegs, Engine.acknowledge, Engine.get, hst])
  | subbytes | shiftrows | mixcols | addrkey | aesround | gfmul | desf | dessbox | desks | des2enc =>
    simp [readRegs, Engine.get, setWidth_128_inj] at hr
    exact .inr (by simp [ruleOf, writeRegs, Engine.get, hst, hr])
  | permIp | permFp | permE | permP | permPc2 =>
    obtain ⟨hsrc, hn⟩ : e.permSrc = e'.permSrc ∧ e.permSrclen = e'.permSrclen := by
      simpa [readRegs, Engine.get, setWidth_128_inj] using hr
    exact permRom_alike hst hsrc hn _ _
  | permUsr =>
    obtain ⟨hsrc, hn, hm, hent⟩ : e.permSrc = e'.permSrc ∧ e.permSrclen = e'.permSrclen ∧ e.permTlen = e'.permTlen ∧
        ∀ j : Fin 64, j.val < e.permTlen.toNat → e.permTbl[j.val] = e'.permTbl[j.val] := by
      simpa [readRegs, Engine.get, setWidth_128_inj] using hr
    exact permUsr_alike hst hsrc hn hm (userTable_congr hm hent)

end agreement

/-- Settles O49: neither engine is halted, so each command runs its rule, and the rule answers alike. -/
theorem commandsDependOnlyOnTheirInputs : Obligations.CommandsDependOnlyOnTheirInputs := by
  unfold Obligations.CommandsDependOnlyOnTheirInputs
  intro i s s' hh hst hr
  have hh' : s'.engine.halted = false := by rwa [Engine.halted, ← hst]
  refine ⟨_, _, exec_running hh i, exec_running hh' i, ?_⟩
  obtain ⟨x, hx, hx'⟩ | ⟨hs, hw⟩ := ruleOf_alike i hst hr
  · exact ⟨by simp [hx, hx', Engine.raise, hst], .inl ⟨x, hx, hx'⟩⟩
  · exact ⟨hs, .inr hw⟩

end Sys2Proof.Machine

namespace Sys2Proof.Machine

/-! ## The registers are the engine (R20, R21) -/

/-- Settles O6: a READ zero-extends a field, which loses nothing, and every field of the engine has its register. -/
theorem registersAreTheWholeEngine : Obligations.RegistersAreTheWholeEngine := by
  unfold Obligations.RegistersAreTheWholeEngine
  intro e e' h
  have field {w : Nat} {x y : BitVec w} (hxy : x.setWidth 128 = y.setWidth 128) (hw : w ≤ 128 := by decide) : x = y :=
    (setWidth_128_inj hw).mp hxy
  exact Engine.ext_fields (h .aesS) (h .aesK) (h .aesO) (field (h .gfA)) (field (h .gfB)) (field (h .gfP))
    (field (h .desR)) (field (h .desRk)) (field (h .desF)) (field (h .desKey)) (field (h .desK1)) (field (h .desK2))
    (field (h .desPt)) (field (h .desCt)) (field (h .permSrc)) (field (h .permSrclen)) (field (h .permTlen))
    (field (h .permOut)) (field (h .permOlen)) (field (h .status))
    (Vector.ext fun i hi => field (h (.permTbl ⟨i, hi⟩)))

/-- An id is unmapped exactly when it lies in one of the gaps R21 lists. -/
theorem unmappedId_iff (id : RegId) : unmappedId id = true ↔ Reg.ofId id = none := by revert id; decide

/-- Settles O5: the single registers row by row; an id of the table RAM is the id of its entry. -/
theorem registerMapFollowsTheTable : Obligations.RegisterMapFollowsTheTable := by
  unfold Obligations.RegisterMapFollowsTheTable
  exact ⟨by decide, fun i => ⟨Reg.ofId_id (.permTbl i), rfl, rfl⟩, unmappedId_iff⟩

/-! ## The fields of STATUS (R42, R214) -/

/-- A STATUS value is its fields laid side by side, from bit 7 down (R42). -/
theorem status_eq_append (st : BitVec 8) :
    st = statusReserved st ++ statusErrcode st ++ BitVec.ofBool (statusHalt st) ++ BitVec.ofBool (statusErr st) := by
  revert st
  decide

/-- Settles O12: the accessors of an engine are the fields of its STATUS, and `ERR_O` is ERR. -/
theorem statusFieldsSitAtTheirBits : Obligations.StatusFieldsSitAtTheirBits := by
  unfold Obligations.StatusFieldsSitAtTheirBits
  exact fun e => ⟨status_eq_append e.status, rfl⟩

/-! ## A command writes its outputs only (R21, R88, R207) -/

/-- No command has a host-RW register among its outputs (R21, R88). -/
theorem hostWritable_eq_false_of_mem_writeRegs (i : Instr) : ∀ r ∈ writeRegs i, r.hostWritable = false := by
  cases i <;> decide

/-- A PERM command writes STATUS or its two outputs, and no other register (R146, R147). -/
theorem get_permCommand {i : Instr} (hi : i ∈ [.permUsr, .permIp, .permFp, .permE, .permP, .permPc2]) (e : Engine)
    {r : Reg} (hst : r ≠ .status) (ho : r ≠ .permOut) (hl : r ≠ .permOlen) : (ruleOf i e).get r = e.get r := by
  rcases permCommand_cases hi e with h | ⟨-, h⟩ | ⟨v, m, h⟩
  · rw [h, Engine.get_raise e _ r hst]
  · rw [h, Engine.get_raise e _ r hst]
  · rw [h, Engine.get_withPermOut e ho hl]

/-- A register that is neither an output of the command nor STATUS reads as before. -/
theorem get_ruleOf (i : Instr) (e : Engine) {r : Reg} (hr : r ∉ writeRegs i) (hst : r ≠ .status) :
    (ruleOf i e).get r = e.get r := by
  cases i with
  | nop => rfl
  | clrerr => exact Engine.get_withStatus e hst
  | subbytes | shiftrows | mixcols | addrkey | aesround => exact Engine.get_withAesO e (by simpa [writeRegs] using hr)
  | gfmul => exact Engine.get_withGfP e (by simpa [writeRegs] using hr)
  | desf | dessbox => exact Engine.get_withDesF e (by simpa [writeRegs] using hr)
  | desks =>
    obtain ⟨h1, h2⟩ : r ≠ .desK1 ∧ r ≠ .desK2 := by simpa [writeRegs] using hr
    exact Engine.get_withDesKeys e h1 h2
  | des2enc =>
    obtain ⟨hct, h1, h2⟩ : r ≠ .desCt ∧ r ≠ .desK1 ∧ r ≠ .desK2 := by simpa [writeRegs] using hr
    exact (Engine.get_withDesCt _ hct).trans (Engine.get_withDesKeys e h1 h2)
  | permUsr | permIp | permFp | permE | permP | permPc2 =>
    obtain ⟨ho, hl⟩ : r ≠ .permOut ∧ r ≠ .permOlen := by simpa [writeRegs] using hr
    exact get_permCommand (by decide) e hst ho hl

/-- The commands that neither are CLRERR nor belong to the permutation unit: they keep STATUS (R207). -/
def keepsStatus : List Instr :=
  [.nop, .subbytes, .shiftrows, .mixcols, .addrkey, .aesround, .gfmul, .desf, .dessbox, .desks, .des2enc]

theorem ruleOf_status {i : Instr} (hi : i ∈ keepsStatus) (e : Engine) : (ruleOf i e).status = e.status := by
  cases i with
  | clrerr | permUsr | permIp | permFp | permE | permP | permPc2 => exact absurd hi (by decide)
  | _ => simp [ruleOf]

/-- Settles O48: under HALT the engine stays as it is, otherwise the command is its rule. -/
theorem commandsWriteOnlyTheirOutputs : Obligations.CommandsWriteOnlyTheirOutputs := by
  unfold Obligations.CommandsWriteOnlyTheirOutputs
  refine ⟨fun i s t h => ?_, hostWritable_eq_false_of_mem_writeRegs⟩
  cases hh : s.engine.halted with
  | true =>
    rw [exec_halted hh] at h
    cases h
    exact ⟨rfl, rfl, fun _ _ _ => rfl, fun _ => rfl, fun _ => .inr (.inr rfl)⟩
  | false =>
    rw [exec_running hh] at h
    cases h
    refine ⟨rfl, rfl, fun r hr hst => get_ruleOf i _ hr hst, fun hi => ruleOf_status hi _, fun hi => ?_⟩
    refine (permCommand_cases hi s.engine).imp_right (Or.imp_right ?_)
    rintro ⟨v, m, hout⟩
    simp [hout]

/-! ## The invariant of the engine (R42, R37) -/

section invariant
variable {e : Engine}

/-- The invariant speaks of three registers: an engine that reads the same in them meets it too. -/
theorem Engine.Inv.of_get_eq {e' : Engine} (hinv : e.Inv) (h : ∀ r ∈ [.status, .permOut, .permOlen], e'.get r = e.get r) :
    e'.Inv := by
  obtain ⟨hst, hout, hlen⟩ : e'.status = e.status ∧ e'.permOut = e.permOut ∧ e'.permOlen = e.permOlen := by
    simpa [Engine.get, setWidth_128_inj] using h
  unfold Engine.Inv permOutInv
  rw [hst, hout, hlen]
  exact hinv

theorem Engine.reset_inv : Engine.reset.Inv := by
  unfold Engine.Inv statusInv permOutInv
  decide

/-- The error entry keeps STATUS legal: it sets ERR, and no code is above 4 (R206, R215). -/
theorem statusInv_raisedStatus {st : BitVec 8} (h : statusInv st) (x : EpError) : statusInv (raisedStatus st x) := by
  obtain ⟨hres, hcode, -, -⟩ := h
  have hx : x.code.toNat ≤ 4 := by cases x <;> decide
  refine ⟨by rw [raisedStatus_reserved, hres], ?_, by simp, by simp⟩
  rw [raisedStatus_errcode]
  split
  · exact hcode
  · exact hx

theorem Engine.Inv.raise (h : e.Inv) (x : EpError) : (e.raise x).Inv :=
  ⟨statusInv_raisedStatus h.1 x, h.2⟩

/-- CLRERR keeps STATUS legal because it runs without HALT only: with HALT set it would clear ERR beside it (R63, R201). -/
theorem Engine.Inv.acknowledge (h : e.Inv) (hh : e.halted = false) : e.acknowledge.Inv := by
  obtain ⟨⟨hres, -, -, -⟩, hout⟩ := h
  have hhalt : statusHalt e.status = false := hh
  refine ⟨?_, hout⟩
  simp [Engine.acknowledge, statusInv, hres, hhalt]

/-- The outputs of a PERM command are a string of `PERM_OLEN` bits when the table has at most 64 entries (R37). -/
theorem Engine.Inv.permOutput (h : e.Inv) {n : Nat} {T : List Nat} (hT : T.length ≤ 64) : (permOutput e n T).Inv := by
  have hm : (BitVec.ofNat 7 T.length).toNat = T.length := by
    rw [BitVec.toNat_ofNat]
    omega
  refine ⟨h.1, ?_⟩
  simp only [permOutInv, Machine.permOutput, Engine.withPermOut_permOut, Engine.withPermOut_permOlen, hm]
  exact ⟨hT, permReg_lt hT⟩

theorem Engine.Inv.permRom (h : e.Inv) (n : Nat) {T : List Nat} (hT : T.length ≤ 64) : (permRom n T e).Inv := by
  rcases permRom_cases n T e with ⟨hr, -⟩ | ⟨hr, -⟩
  · rw [hr]
    exact h.raise _
  · rw [hr]
    exact h.permOutput hT

theorem Engine.Inv.permUsr (h : e.Inv) : (permUsr e).Inv := by
  rcases permUsr_cases e with ⟨hr, -⟩ | ⟨hr, -⟩ | ⟨hr, -⟩
  · rw [hr]
    exact h.raise _
  · rw [hr]
    exact h.raise _
  · rw [hr]
    exact h.permOutput (by simp [Engine.userTable])

/-- Every command keeps the invariant in an engine that runs: eleven write none of its three registers. -/
theorem Engine.Inv.ruleOf (h : e.Inv) (hh : e.halted = false) (i : Instr) : (ruleOf i e).Inv := by
  cases i with
  | clrerr => exact h.acknowledge hh
  | permUsr => exact h.permUsr
  | permIp | permFp | permE | permP | permPc2 => exact h.permRom _ (by decide)
  | _ => simpa [Machine.ruleOf, Engine.Inv, permOutInv] using h

/-- A WRITE keeps the invariant: none of its three registers is host-RW (R21, R61). -/
theorem Engine.Inv.hostWrite (h : e.Inv) (id : RegId) (v : Word) : (e.hostWrite id v).Inv := by
  rcases e.hostWrite_cases id v with ⟨-, hw⟩ | ⟨-, hw, -⟩ | ⟨-, r, -, hrw, ⟨-, hw⟩ | ⟨-, hw⟩⟩
  · rw [hw]
    exact h
  · rw [hw]
    exact h.raise _
  · rw [hw]
    exact h.raise _
  · have hro : ∀ r' ∈ [Reg.status, .permOut, .permOlen], r'.hostWritable = false := by decide
    rw [hw]
    refine h.of_get_eq fun r' hr' => Engine.get_set_of_ne e r r' v ?_
    rintro rfl
    simp [hro r' hr'] at hrw

/-- Every transaction keeps the invariant (R60 to R64). -/
theorem TransactionEffect.inv {tr : Transaction} {e' : Engine} (ht : TransactionEffect e tr e') (h : e.Inv) : e'.Inv := by
  cases tr with
  | reset =>
    obtain rfl : e' = Engine.reset := ht
    exact Engine.reset_inv
  | write id v =>
    obtain rfl : e' = e.hostWrite id v := ht
    exact h.hostWrite id v
  | read id =>
    obtain rfl : e' = e := ht
    exact h
  | cmd c =>
    rcases ht with ⟨-, rfl⟩ | ⟨hh, ⟨i, -, rfl⟩ | ⟨-, rfl⟩⟩
    · exact h
    · exact h.ruleOf hh i
    · exact h.raise _

end invariant

/-- Settles O51: a step takes nothing or one transaction, and every transaction keeps the invariant. -/
theorem stepKeepsTheEngineInvariant : Obligations.StepKeepsTheEngineInvariant := by
  unfold Obligations.StepKeepsTheEngineInvariant
  intro s t h hstep
  obtain ⟨-, rfl⟩ | ⟨tr, rest, -, -, ht⟩ := step_cases hstep
  · exact h
  · exact ht.inv h

/-- Settles O52: the machine after reset holds the engine of RESET. -/
theorem resetMeetsTheEngineInvariant : Obligations.ResetMeetsTheEngineInvariant := by
  unfold Obligations.ResetMeetsTheEngineInvariant
  exact Engine.reset_inv

/-! ## What READ returns after RESET (R55, R56) -/

/-- After RESET every register is zero (R55). -/
@[simp] theorem Engine.get_reset (r : Reg) : Engine.reset.get r = 0 := by
  cases r with
  | permTbl i => simp [Engine.get, Engine.reset]
  | _ => rfl

/-- After RESET a READ returns 0, whatever the id (R55, R62). -/
theorem Engine.hostRead_reset (id : RegId) : Engine.reset.hostRead id = 0 := by
  cases h : Reg.ofId id with
  | none => simp [Engine.hostRead, h]
  | some r => rw [Engine.hostRead_of_ofId h, Engine.get_reset]

/-- One AES round of the zero block under the zero key (R135): 0x63 sixteen times. -/
theorem aesRound_zero_value :
    pack (mixColumns (shiftRows (subBytes (bytes 0)))) ^^^ 0 = 0x63636363636363636363636363636363#128 := by decide

/-- The round function of zeros (R183). -/
theorem feistelReg_zero_zero : feistelReg 0 0 = 0xD8D8DBBC#32 := by decide

/-- Settles O56: the engine of RESET runs, so the two commands are their rules on zero inputs. -/
theorem resetOutputsAreZeroNotResults : Obligations.ResetOutputsAreZeroNotResults := by
  unfold Obligations.ResetOutputsAreZeroNotResults
  have hrun : State.reset.engine.halted = false := by decide
  refine ⟨fun id _ => Engine.hostRead_reset id, ?_, ?_⟩
  · rw [exec_running hrun, ← aesRound_zero_value]
    rfl
  · rw [exec_running hrun, ← feistelReg_zero_zero]
    rfl

end Sys2Proof.Machine

namespace Sys2Proof.Machine

/-! ## What a transaction at the head of `pending` does (R60 to R64)

`issue_reset`, `issue_write` and `issue_read` say what a step with a RESET, a WRITE or a READ at the head of `pending` answers;
here is the CMD. -/

/-- A step whose transaction is CMD(c) runs the word c on the state without that transaction (R64). -/
theorem step_cmd (e : Engine) (rest : List Transaction) (resp : Option Word) (c : CmdWord) :
    step { engine := e, pending := .cmd c :: rest, response := resp }
      = runCmd c { engine := e, pending := rest, response := none } := rfl

/-- A word that decodes is its command (R64, R87). -/
theorem runCmd_of_decode {c : CmdWord} {i : Instr} (h : decode c = some i) (s : State) : runCmd c s = exec i s := by
  simp [runCmd, h]

/-- Under HALT every command word is ignored, legal or not (R63). -/
theorem runCmd_halted {s : State} (h : s.engine.halted = true) (c : CmdWord) : runCmd c s = .next s := by
  cases hd : decode c with
  | some i => rw [runCmd_of_decode hd, exec_halted h]
  | none => simp only [runCmd, hd, command_halted h]

/-! ## RESET (R60) -/

/-- Settles O1: the step answers the engine of RESET, where every register reads 0. -/
theorem resetZeroesEveryRegister : Obligations.ResetZeroesEveryRegister := by
  unfold Obligations.ResetZeroesEveryRegister
  exact fun e rest resp => ⟨Engine.reset, issue_reset ⟨e, rest, resp⟩, Engine.get_reset⟩

/-! ## READ (R62) -/

/-- The id of a register reads that register. -/
theorem Engine.hostRead_id (e : Engine) (r : Reg) : e.hostRead r.id = e.get r := Engine.hostRead_of_ofId (Reg.ofId_id r)

/-- An unmapped id reads 0. -/
theorem Engine.hostRead_unmapped (e : Engine) {id : RegId} (h : unmappedId id = true) : e.hostRead id = 0 := by
  simp [Engine.hostRead, (unmappedId_iff id).mp h]

/-- Settles O3: a READ only answers `hostRead` of the engine, which finds each register under its id. -/
theorem readReturnsTheRegisterAndChangesNothing : Obligations.ReadReturnsTheRegisterAndChangesNothing := by
  unfold Obligations.ReadReturnsTheRegisterAndChangesNothing
  refine ⟨fun e rest resp id => issue_read ⟨e, rest, resp⟩ id, fun e => ?_, fun e rest resp id => ?_⟩
  · have read := e.hostRead_id
    exact ⟨read .aesS, read .aesK, read .aesO, read .gfA, read .gfB, read .gfP,
      read .desR, read .desRk, read .desF, read .desKey, read .desK1, read .desK2, read .desPt, read .desCt,
      read .permSrc, read .permSrclen, read .permTlen, read .permOut, read .permOlen, read .status,
      fun i => read (.permTbl i), fun _ => e.hostRead_unmapped⟩
  · exact ⟨_, _, issue_read ⟨e, .read id :: rest, resp⟩ id, issue_read ⟨e, rest, some (e.hostRead id)⟩ id, rfl⟩

/-! ## WRITE (R61): one equation per outcome, in the order of its tests -/

section hostWrite
variable {e : Engine} {id : RegId} {v : Word} {r : Reg}

theorem Engine.hostWrite_halted (hh : e.halted = true) : e.hostWrite id v = e := by
  simp [Engine.hostWrite, hh]

theorem Engine.hostWrite_unmapped (hh : e.halted = false) (ho : Reg.ofId id = none) :
    e.hostWrite id v = e.raise .badAccess := by
  simp [Engine.hostWrite, hh, ho]

theorem Engine.hostWrite_readOnly (hh : e.halted = false) (ho : Reg.ofId id = some r) (hw : r.hostWritable = false) :
    e.hostWrite id v = e.raise .badAccess := by
  simp [Engine.hostWrite, hh, ho, hw]

theorem Engine.hostWrite_tooWide (hh : e.halted = false) (ho : Reg.ofId id = some r) (hw : r.hostWritable = true)
    (hv : 2 ^ r.width ≤ v.toNat) : e.hostWrite id v = e.raise .length := by
  simp [Engine.hostWrite, hh, ho, hw, hv]

theorem Engine.hostWrite_fits (hh : e.halted = false) (ho : Reg.ofId id = some r) (hw : r.hostWritable = true)
    (hv : v.toNat < 2 ^ r.width) : e.hostWrite id v = e.set r v := by
  simp [Engine.hostWrite, hh, ho, hw, Nat.not_le.mpr hv]

end hostWrite

/-- Settles O4: each clause is one outcome of WRITE; a write that fits is `set`, a failing one the error entry. -/
theorem writeStoresOneRegisterOrRaises : Obligations.WriteStoresOneRegisterOrRaises := by
  unfold Obligations.WriteStoresOneRegisterOrRaises
  refine ⟨fun e rest resp id v => issue_write ⟨e, rest, resp⟩ id v, fun e id v => Engine.hostWrite_halted, ?_,
    fun e id v r => Engine.hostWrite_tooWide, ?_, Engine.get_raise⟩
  · rintro e id v hh (ho | ⟨r, ho, hw⟩)
    · exact Engine.hostWrite_unmapped hh ho
    · exact Engine.hostWrite_readOnly hh ho hw
  · intro e id v r hh ho hw hv
    rw [Engine.hostWrite_fits hh ho hw hv]
    exact ⟨Engine.get_set_same e r v hv, fun r' => Engine.get_set_of_ne e r r' v⟩

/-! ## HALT (R63) -/

/-- Settles O7: WRITE and CMD test HALT first; READ and RESET do not look at it. -/
theorem haltIgnoresWritesAndCommands : Obligations.HaltIgnoresWritesAndCommands := by
  unfold Obligations.HaltIgnoresWritesAndCommands
  refine ⟨fun e rest resp id v c hh => ⟨?_, ?_, ?_, ?_⟩, fun i s hh => exec_halted hh i⟩
  · exact (issue_write ⟨e, rest, resp⟩ id v).trans (by rw [Engine.hostWrite_halted hh])
  · exact (step_cmd e rest resp c).trans (runCmd_halted hh c)
  · exact issue_read ⟨e, rest, resp⟩ id
  · exact issue_reset ⟨e, rest, resp⟩

/-! ## CMD (R64, R87) -/

/-- The word of a command decodes to the command (R87). -/
theorem decode_encode (i : Instr) : decode (encode i) = some i := by cases i <;> rfl

/-- A word of 8 bits placed by `withFetchWord` is the next command word, whole. -/
theorem withFetchWord_toNat (s : State) (c : CmdWord) :
    s.withFetchWord 8 c.toNat = { s with pending := .cmd c :: s.pending } := by
  have hword : BitVec.ofNat 8 (c.toNat % 2 ^ 8) = c := by
    rw [Nat.mod_eq_of_lt c.isLt, BitVec.ofNat_toNat, BitVec.setWidth_eq]
  simp only [State.withFetchWord, hword]

/-- Settles O8: CMD(c) runs c, and c is the command it decodes to; a placed word is such a c. -/
theorem stepRunsTheDecodedCommand : Obligations.StepRunsTheDecodedCommand := by
  unfold Obligations.StepRunsTheDecodedCommand
  refine ⟨fun e rest resp c i h => ?_, fun s i => ?_⟩
  · rw [step_cmd, runCmd_of_decode h]
  · rw [withFetchWord_toNat, step_cmd, runCmd_of_decode (decode_encode i)]

/-! ## A command repeated (R72)

The outputs of a rule are not among its inputs (CLRERR apart, which clears what is then clear), so the second run makes the
same checks with the same results and writes the same values. -/

section twice
variable (e : Engine)

/-- The same error again changes nothing: ERR is set by then, so the code is kept (R215). -/
@[simp] theorem Engine.raise_raise (x : EpError) : (e.raise x).raise x = e.raise x := by
  have hst : raisedStatus (raisedStatus e.status x) x = raisedStatus e.status x :=
    status_ext (by simp) (by cases x <;> simp) (by simp) (by simp)
  simp [Engine.raise, hst]

@[simp] theorem Engine.acknowledge_acknowledge : e.acknowledge.acknowledge = e.acknowledge := by
  have hst : withErrcode (withErr (withErrcode (withErr e.status false) 0#3) false) 0#3
      = withErrcode (withErr e.status false) 0#3 := status_ext (by simp) (by simp) (by simp) (by simp)
  simp [Engine.acknowledge, hst]

/-! The checks of the PERM commands read neither STATUS nor the two outputs. -/

@[simp] theorem usrLengthBad_raise (x : EpError) : usrLengthBad (e.raise x) = usrLengthBad e := (rfl)
@[simp] theorem srcTooLong_raise (x : EpError) : srcTooLong (e.raise x) = srcTooLong e := (rfl)
@[simp] theorem tableIndexBad_raise (x : EpError) : tableIndexBad (e.raise x) = tableIndexBad e := (rfl)

variable (n : Nat) (T : List Nat)

@[simp] theorem usrLengthBad_permOutput : usrLengthBad (permOutput e n T) = usrLengthBad e := (rfl)
@[simp] theorem srcTooLong_permOutput : srcTooLong (permOutput e n T) = srcTooLong e := (rfl)
@[simp] theorem tableIndexBad_permOutput : tableIndexBad (permOutput e n T) = tableIndexBad e := (rfl)
@[simp] theorem userTable_permOutput : (permOutput e n T).userTable = e.userTable := (rfl)
@[simp] theorem permSrclen_permOutput : (permOutput e n T).permSrclen = e.permSrclen := (rfl)

@[simp] theorem permOutput_permOutput : permOutput (permOutput e n T) n T = permOutput e n T := by simp [permOutput]

theorem permRom_permRom : permRom n T (permRom n T e) = permRom n T e := by
  rcases permRom_cases n T e with ⟨h, hbad⟩ | ⟨h, hn, hsrc⟩
  · rw [h]
    rcases hbad with hn | hsrc
    · simp [permRom, hn]
    · simp [permRom, hsrc]
  · rw [h]
    simp [permRom, hn, hsrc]

theorem permUsr_permUsr : permUsr (permUsr e) = permUsr e := by
  rcases permUsr_cases e with ⟨h, hbad⟩ | ⟨h, hlen, hsrc, hidx⟩ | ⟨h, hlen, hsrc, hidx⟩
  · rw [h]
    rcases hbad with hlen | hsrc
    · simp [permUsr, hlen]
    · simp [permUsr, hsrc]
  · rw [h]
    simp [permUsr, hlen, hsrc, hidx]
  · rw [h]
    simp [permUsr, hlen, hsrc, hidx]

/-- Every rule is idempotent. -/
theorem ruleOf_ruleOf (i : Instr) : ruleOf i (ruleOf i e) = ruleOf i e := by
  cases i with
  | nop => rfl
  | clrerr => exact e.acknowledge_acknowledge
  | subbytes | shiftrows | mixcols | addrkey | aesround | gfmul | desf | dessbox | desks | des2enc => simp [ruleOf]
  | permUsr => exact permUsr_permUsr e
  | permIp | permFp | permE | permP | permPc2 => exact permRom_permRom e _ _

end twice

/-- A command whose rule keeps the engine changes nothing, under HALT or not. -/
theorem command_of_fixed {s : State} {rule : Engine → Engine} (h : rule s.engine = s.engine) : command s rule = .next s := by
  simp [command, h]

/-- Settles O50: a halted engine stays as it is; a running one becomes the rule's answer, which the rule keeps. -/
theorem commandsAreIdempotent : Obligations.CommandsAreIdempotent := by
  unfold Obligations.CommandsAreIdempotent
  intro i s t h
  cases hh : s.engine.halted with
  | true =>
    rw [exec_halted hh] at h
    cases h
    exact exec_halted hh i
  | false =>
    rw [exec_running hh] at h
    cases h
    rw [exec_eq_command]
    exact command_of_fixed (ruleOf_ruleOf s.engine i)

end Sys2Proof.Machine

namespace Sys2Proof.Machine

/-! ## The decoder and the opcode table (R85, R87, R88, R90) -/

/-- Every row of the table compares the whole word with the word of its command (R87, R88). -/
theorem opcodeTable_row : ∀ row ∈ opcodeTable, row.mask = 0xFF#8 ∧ row.code = encode row.instr := by decide

/-- A word that decodes is the word of its command (R85, R87): the row found has that word for its code. -/
theorem encode_of_decode {c : CmdWord} {i : Instr} (h : decode c = some i) : encode i = c := by
  obtain ⟨row, hfind, rfl⟩ := Option.map_eq_some_iff.mp h
  obtain ⟨hmask, hcode⟩ := opcodeTable_row row (List.mem_of_find?_eq_some hfind)
  have hmatch : c &&& row.mask = row.code := by simpa using List.find?_some hfind
  have hwhole : c &&& 0xFF#8 = c := BitVec.and_allOnes
  rw [← hcode, ← hmatch, hmask, hwhole]

/-- Settles O9: the word written out on each row is the word of the row's command. -/
theorem wordsOfTheTableDecode : Obligations.WordsOfTheTableDecode := by
  unfold Obligations.WordsOfTheTableDecode
  exact ⟨decode_encode .nop, decode_encode .clrerr,
    decode_encode .subbytes, decode_encode .shiftrows, decode_encode .mixcols, decode_encode .addrkey,
    decode_encode .aesround, decode_encode .gfmul,
    decode_encode .desf, decode_encode .dessbox, decode_encode .desks, decode_encode .des2enc,
    decode_encode .permUsr, decode_encode .permIp, decode_encode .permFp, decode_encode .permE,
    decode_encode .permP, decode_encode .permPc2⟩

/-- Settles O11: the table holds the word of every command, and no row holds any other. -/
theorem decodeAndEncodeAgree : Obligations.DecodeAndEncodeAgree := by
  unfold Obligations.DecodeAndEncodeAgree
  exact ⟨fun i _ => decode_encode i, fun _ _ => encode_of_decode⟩

/-- A word is illegal exactly when it lies in one of the ranges R90 lists. -/
theorem illegalWord_iff (c : CmdWord) : illegalWord c = true ↔ decode c = none := by revert c; decide

/-- The ranges of R90 that lie below 0x50 hold 62 words. -/
theorem illegalWord_count_below : ((List.range 0x50).filter fun n => illegalWord (BitVec.ofNat 8 n)).length = 62 := by
  decide

/-- The last range of R90: every word from 0x50 on. -/
theorem illegalWord_of_le {n : Nat} (hlo : 0x50 ≤ n) (hhi : n < 256) : illegalWord (BitVec.ofNat 8 n) = true := by
  have hn : (BitVec.ofNat 8 n).toNat = n := Nat.mod_eq_of_lt hhi
  simp [illegalWord, hn, hlo]

/-- R90 lists 238 words: 62 below 0x50 and the 176 from there on. -/
theorem illegalWord_count : ((List.range 256).filter fun n => illegalWord (BitVec.ofNat 8 n)).length = 238 := by
  have hsplit : List.range 256 = List.range 0x50 ++ List.range' 0x50 176 := by
    simp only [List.range_eq_range']
    exact (List.range'_append_1 (s := 0) (m := 0x50) (n := 176)).symm
  have hlast : (List.range' 0x50 176).filter (fun n => illegalWord (BitVec.ofNat 8 n)) = List.range' 0x50 176 :=
    List.filter_eq_self.mpr fun n hn => by
      obtain ⟨hlo, hhi⟩ := List.mem_range'_1.mp hn
      exact illegalWord_of_le hlo hhi
  rw [hsplit, List.filter_append, hlast, List.length_append, illegalWord_count_below, List.length_range']

/-- A word that does not decode is the error entry ILLEGAL_CMD (R90, R208). -/
theorem runCmd_of_illegal {s : State} {c : CmdWord} (h : decode c = none) (hh : s.engine.halted = false) :
    runCmd c s = .next { s with engine := s.engine.raise .illegalCmd } := by
  simp only [runCmd, h, command_running hh]

/-- Settles O10: an illegal word is one with no row, and CMD of such a word is the error entry, which writes STATUS only. -/
theorem illegalWordsRaiseIllegalCmd : Obligations.IllegalWordsRaiseIllegalCmd := by
  unfold Obligations.IllegalWordsRaiseIllegalCmd
  refine ⟨illegalWord_iff, illegalWord_count, fun e rest resp c hh hc => ⟨?_, e.get_raise .illegalCmd⟩, rfl,
    decode_encode .nop⟩
  rw [step_cmd]
  exact runCmd_of_illegal ((illegalWord_iff c).mp hc) hh

/-! ## Pseudo-instructions of the host notation (R92, R93) -/

/-- HALT is a bit of STATUS, so a register the host may write leaves it as it is (R21, R42). -/
theorem Engine.set_halted (e : Engine) {r : Reg} (hw : r.hostWritable = true) (v : Word) :
    (e.set r v).halted = e.halted := by
  cases r with
  | status => cases hw
  | _ => rfl

/-- Issuing a WRITE of a value that fits into a host-RW register writes that register (R61). -/
theorem issue_write_fits {s : State} {r : Reg} {v : Word} (hh : s.engine.halted = false) (hw : r.hostWritable = true)
    (hv : v.toNat < 2 ^ r.width) :
    issue (.write r.id v) s = .next { s with engine := s.engine.set r v, response := none } := by
  rw [issue_write, Engine.hostWrite_fits hh (Reg.ofId_id r) hw hv]

/-- Several transactions in two parts: the second part starts where the first ended. -/
theorem issueAll_append {xs ys : List Transaction} {s t : State} (h : issueAll xs s = .next t) :
    issueAll (xs ++ ys) s = issueAll ys t := by
  induction xs generalizing s with
  | nil => cases h; rfl
  | cons x xs ih =>
    obtain ⟨u, hu⟩ : ∃ u, issue x s = .next u := step_total _
    rw [issueAll_cons hu] at h
    rw [List.cons_append, issueAll_cons hu, ih h]

/-- What writing the words `ts` into the table RAM from position `i` on leaves (R93): the entries written read as the words,
and every other register, the other entries among them, reads as before. -/
structure TableLoaded (i : Nat) (ts : List Word) (e e' : Engine) : Prop where
  written : ∀ (k : Nat) (hk : k < ts.length) (j : Fin 64), j.val = i + k → e'.get (.permTbl j) = ts[k]
  kept : ∀ r : Reg, (∀ j : Fin 64, r = .permTbl j → j.val < i ∨ i + ts.length ≤ j.val) → e'.get r = e.get r

theorem TableLoaded.nil (i : Nat) (e : Engine) : TableLoaded i [] e e := ⟨nofun, fun _ _ => rfl⟩

/-- The first word is written to its entry, and the entries after it leave that one alone. -/
theorem TableLoaded.cons {i : Nat} {t : Word} {ts : List Word} {e e' : Engine} (hi : i < 64) (ht : t.toNat < 128)
    (h : TableLoaded (i + 1) ts (e.set (.permTbl ⟨i, hi⟩) t) e') : TableLoaded i (t :: ts) e e' where
  written k hk j hj := by
    cases k with
    | zero =>
      obtain rfl : j = ⟨i, hi⟩ := Fin.ext hj
      rw [h.kept _ (by rintro _ ⟨⟩; exact .inl (Nat.lt_succ_self i)), Engine.get_set_same _ _ _ ht, List.getElem_cons_zero]
    | succ k => exact h.written k (Nat.lt_of_succ_lt_succ hk) j (by omega)
  kept r hr := by
    rw [List.length_cons] at hr
    have hne : r ≠ .permTbl ⟨i, hi⟩ := fun he => by
      have hout : i < i ∨ i + (ts.length + 1) ≤ i := hr _ he
      omega
    rw [h.kept r fun j hj => by have := hr j hj; omega, Engine.get_set_of_ne _ _ _ _ hne]

/-- The WRITEs of an LDTBL, in a running engine and within the table RAM, load it and leave the engine running (R61, R93). -/
theorem issueAll_tableWrites {i : Nat} {ts : List Word} {s : State} (hh : s.engine.halted = false)
    (hlen : i + ts.length ≤ 64) (hts : ∀ t ∈ ts, t.toNat < 128) :
    ∃ u, issueAll (tableWrites i ts) s = .next u ∧ u.pending = s.pending ∧ u.engine.halted = false ∧
      TableLoaded i ts s.engine u.engine := by
  induction ts generalizing i s with
  | nil => exact ⟨s, rfl, rfl, hh, .nil i s.engine⟩
  | cons t ts ih =>
    rw [List.length_cons] at hlen
    rw [List.forall_mem_cons] at hts
    obtain ⟨ht, hts⟩ := hts
    have hi : i < 64 := by omega
    have hfirst := issue_write_fits (r := .permTbl ⟨i, hi⟩) hh rfl ht
    obtain ⟨u, hu, hpending, hrun, hload⟩ :=
      ih (i := i + 1) (s := { s with engine := s.engine.set (.permTbl ⟨i, hi⟩) t, response := none }) hh (by omega) hts
    exact ⟨u, (issueAll_cons hfirst).trans hu, hpending, hrun, .cons hi ht hload⟩

/-- LDTBL of a table that fits loads the table RAM and PERM_TLEN, and changes no other register (R93). -/
theorem perform_ldtbl {s : State} {ts : List Word} (hh : s.engine.halted = false) (hlen : ts.length ≤ 64)
    (hts : ∀ t ∈ ts, t.toNat < 128) :
    ∃ e', TableLoaded 0 ts s.engine e' ∧ (HostProg.ldtbl ts).perform s
      = .next { s with engine := e'.set .permTlen (BitVec.ofNat 128 ts.length), response := none } := by
  obtain ⟨t, ht, hpending, hrun, hload⟩ := issueAll_tableWrites (i := 0) hh (by omega) hts
  have hfits : (BitVec.ofNat 128 ts.length).toNat < 2 ^ Reg.permTlen.width := by
    simp only [BitVec.toNat_ofNat, Reg.width]
    omega
  refine ⟨t.engine, hload, ?_⟩
  rw [← hpending]
  exact (issueAll_append ht).trans (issueAll_cons (issue_write_fits hrun rfl hfits))

/-- MOV into a host-RW register that the source fits writes the source's value there (R61, R62, R93). -/
theorem perform_mov {s : State} {dst src : Reg} (hh : s.engine.halted = false) (hw : dst.hostWritable = true)
    (hv : (s.engine.get src).toNat < 2 ^ dst.width) :
    (HostProg.mov dst.id src.id).perform s
      = .next { s with engine := s.engine.set dst (s.engine.get src), response := none } := by
  simp only [HostProg.perform, issue_read, andThen, Option.getD_some, Engine.hostRead_id]
  exact issue_write_fits hh hw hv

/-- Settles O55: an LDTBL is its table writes, one entry after the other, and the write of PERM_TLEN; a MOV is the write of the
value read. -/
theorem pseudoInstructionsMoveAndLoad : Obligations.PseudoInstructionsMoveAndLoad := by
  unfold Obligations.PseudoInstructionsMoveAndLoad
  refine ⟨fun s ts hh hlen hts => ?_, fun s dst src hh hw hv => ?_⟩
  · obtain ⟨e', hload, hu⟩ := perform_ldtbl hh hlen hts
    have hother {r : Reg} (hr : r ≠ .permTlen) := Engine.get_set_of_ne e' _ r (BitVec.ofNat 128 ts.length) hr
    refine ⟨_, hu, rfl, ?_, fun i => ?_, fun r hr htbl => ?_⟩
    · simp only [Engine.set, BitVec.toNat_setWidth, BitVec.toNat_ofNat]
      omega
    · rw [hother (r := .permTbl i) nofun]
      split
      case isTrue hi => rw [hload.written i hi i (Nat.zero_add _).symm, List.getD_eq_getElem _ _ hi]
      case isFalse hi => exact hload.kept _ (by rintro _ ⟨⟩; omega)
    · rw [hother hr, hload.kept r fun j hj => absurd hj (htbl j)]
  · exact ⟨_, perform_mov hh hw hv, rfl, Engine.get_set_same _ _ _ hv, fun r => Engine.get_set_of_ne _ _ r _⟩

end Sys2Proof.Machine

namespace Sys2Proof.Machine

/-! ## Multiplication in GF(2^8) (R105, R106, R108): a sum over the bits of one operand, linear in each -/

/-- Additive functions of a byte that agree at the eight single-bit bytes agree. -/
theorem additive_ext (f g : Byte → Byte) (hf : ∀ x y, f (x ^^^ y) = f x ^^^ f y)
    (hg : ∀ x y, g (x ^^^ y) = g x ^^^ g y) (basis : ∀ i : Fin 8, f (1#8 <<< i.val) = g (1#8 <<< i.val)) (a : Byte) :
    f a = g a := by
  induction a using byte_induction with
  | zero =>
    have zero {h : Byte → Byte} (hh : ∀ x y, h (x ^^^ y) = h x ^^^ h y) : h 0 = 0 := by simpa using hh 0 0
    rw [zero hf, zero hg]
  | xor x y hx hy => rw [hf, hg, hx, hy]
  | basis i => exact basis i

/-- The product distributes over exclusive-or on the left (R108). -/
theorem gfMul_xor_left (a b c : Byte) : gfMul (a ^^^ b) c = gfMul a c ^^^ gfMul b c := by
  simp only [gfMul_eq, xtime_xor, sel_xor]
  ac_rfl

/-- The product distributes over exclusive-or on the right (R108). -/
theorem gfMul_xor_right (a b c : Byte) : gfMul a (b ^^^ c) = gfMul a b ^^^ gfMul a c := by
  simp only [gfMul_eq, BitVec.getLsbD_xor, sel_bxor]
  ac_rfl

@[simp] theorem gfMul_zero_right (a : Byte) : gfMul a 0 = 0 := by simpa using gfMul_xor_right a 0 0

@[simp] theorem gfMul_zero_left (a : Byte) : gfMul 0 a = 0 := by simpa using gfMul_xor_left 0 0 a

/-- The product with the single bit i is the multiplication by x, done i times. -/
theorem gfMul_single_bit (a : Byte) (i : Fin 8) : gfMul a (1#8 <<< i.val) = xtime^[i.val] a := by
  fin_cases i <;> simp [gfMul_eq, sel]

@[simp] theorem gfMul_one_right (a : Byte) : gfMul a 1 = a := gfMul_single_bit a 0

theorem gfMul_one_left (a : Byte) : gfMul 1 a = a :=
  additive_ext (gfMul 1) id (gfMul_xor_right 1) (fun _ _ => rfl) (by decide) a

/-- The single bit i is x^i. -/
theorem single_bit_eq (i : Fin 8) : 1#8 <<< i.val = xtime^[i.val] 1 := by
  rw [← gfMul_single_bit, gfMul_one_left]

theorem xtime_zero : xtime 0 = 0 := by decide

/-- Multiplying a factor by x multiplies the product by x. -/
theorem gfMul_xtime_left (a b : Byte) : gfMul (xtime a) b = xtime (gfMul a b) := by
  have xtime_sel (c : Bool) (x : Byte) : xtime (sel c x) = sel c (xtime x) := by
    cases c
    · exact xtime_zero
    · rfl
  simp only [gfMul_eq, xtime_xor, xtime_sel]

theorem gfMul_iterate_xtime_left (n : Nat) (a b : Byte) : gfMul (xtime^[n] a) b = xtime^[n] (gfMul a b) :=
  (Function.Semiconj.iterate_right (f := fun x => gfMul x b) (fun x => gfMul_xtime_left x b) n) a

/-- R108: the product is commutative, since a single bit i multiplies by x^i on either side. -/
theorem gfMul_comm (a b : Byte) : gfMul a b = gfMul b a := by
  refine additive_ext (gfMul a) (gfMul · a) (gfMul_xor_right a) (fun x y => gfMul_xor_left x y a) (fun i => ?_) b
  calc gfMul a (1#8 <<< i.val) = xtime^[i.val] a := gfMul_single_bit a i
    _ = xtime^[i.val] (gfMul 1 a) := by rw [gfMul_one_left]
    _ = gfMul (1#8 <<< i.val) a := by rw [single_bit_eq, gfMul_iterate_xtime_left]

theorem gfMul_two_left (x : Byte) : gfMul 0x02 x = xtime x := by
  rw [gfMul_comm]
  exact gfMul_single_bit x 1

/-- R108: the product is associative, since a factor x^i of an operand is a factor of the product. -/
theorem gfMul_assoc (a b c : Byte) : gfMul (gfMul a b) c = gfMul a (gfMul b c) := by
  refine additive_ext (gfMul (gfMul a b)) (fun x => gfMul a (gfMul b x)) (gfMul_xor_right _)
    (fun x y => by simp only [gfMul_xor_right]) (fun i => ?_) c
  calc gfMul (gfMul a b) (1#8 <<< i.val) = xtime^[i.val] (gfMul b a) := by rw [gfMul_single_bit, gfMul_comm]
    _ = gfMul (xtime^[i.val] b) a := (gfMul_iterate_xtime_left _ b a).symm
    _ = gfMul a (gfMul b (1#8 <<< i.val)) := by rw [gfMul_single_bit, gfMul_comm]

/-- Settles O20: commutativity as above, identity and zero by the linearity in the second operand. -/
theorem gfMulCommutes : Obligations.GfMulCommutes := by
  unfold Obligations.GfMulCommutes
  exact fun a b => ⟨gfMul_comm a b, gfMul_one_right a, gfMul_zero_right a⟩

/-- Settles O18: the rule of GFMUL writes `GF_P` only; the corner cases and the trace are evaluated. -/
theorem gfmulWritesTheProduct : Obligations.GfmulWritesTheProduct := by
  unfold Obligations.GfmulWritesTheProduct
  exact ⟨fun s hh => exec_running hh .gfmul, rfl, fun a => ⟨gfMul_zero_right a, gfMul_one_right a, gfMul_zero_left a⟩,
    by decide, by decide, by decide, by decide, by decide⟩

/-! ## The product of polynomials, reduced (R105, R106) -/

/-- One term of the carry-less product: a shifted to bit i of b. -/
def polyMulStep (a b : Byte) (acc : BitVec 16) (i : Nat) : BitVec 16 :=
  if b.getLsbD i then acc ^^^ (a.setWidth 16 <<< i) else acc

theorem polyMul_eq (a b : Byte) : polyMul a b = (List.range 8).foldl (polyMulStep a b) 0 := rfl

/-- One step of the reduction: the degree 15 - j is removed. -/
def polyModStep (acc : BitVec 16) (j : Nat) : BitVec 16 :=
  if acc.getLsbD (15 - j) then acc ^^^ (0x11B#16 <<< (7 - j)) else acc

theorem polyMod_eq (x : BitVec 16) : polyMod x = ((List.range 8).foldl polyModStep x).setWidth 8 := rfl

/-- Adding k under a condition is additive in the condition: two additions of k cancel. -/
theorem xor_ite_bxor {w : Nat} (c d : Bool) (x y k : BitVec w) :
    (if Bool.xor c d then x ^^^ y ^^^ k else x ^^^ y) = (if c then x ^^^ k else x) ^^^ (if d then y ^^^ k else y) := by
  have hcancel : x ^^^ k ^^^ (y ^^^ k) = x ^^^ y ^^^ (k ^^^ k) := by ac_rfl
  cases c <;> cases d
  case true.true => simp [hcancel]
  case true.false =>
    show x ^^^ y ^^^ k = x ^^^ k ^^^ y
    ac_rfl
  case false.true => exact BitVec.xor_assoc x y k
  case false.false => rfl

theorem polyMul_xor_left (a b c : Byte) : polyMul (a ^^^ b) c = polyMul a c ^^^ polyMul b c := by
  have step (x y : BitVec 16) (i : Nat) :
      polyMulStep a c x i ^^^ polyMulStep b c y i = polyMulStep (a ^^^ b) c (x ^^^ y) i := by
    simp only [polyMulStep, BitVec.setWidth_xor, BitVec.shiftLeft_xor_distrib]
    split
    · ac_rfl
    · rfl
  exact List.foldl_hom₂ (List.range 8) (· ^^^ ·) (polyMulStep a c) (polyMulStep b c) (polyMulStep (a ^^^ b) c) 0 0 step

theorem polyMul_xor_right (a b c : Byte) : polyMul a (b ^^^ c) = polyMul a b ^^^ polyMul a c := by
  have step (x y : BitVec 16) (i : Nat) :
      polyMulStep a b x i ^^^ polyMulStep a c y i = polyMulStep a (b ^^^ c) (x ^^^ y) i := by
    simp only [polyMulStep, BitVec.getLsbD_xor, xor_ite_bxor]
  exact List.foldl_hom₂ (List.range 8) (· ^^^ ·) (polyMulStep a b) (polyMulStep a c) (polyMulStep a (b ^^^ c)) 0 0 step

theorem polyMod_xor (x y : BitVec 16) : polyMod (x ^^^ y) = polyMod x ^^^ polyMod y := by
  have step (x y : BitVec 16) (j : Nat) : polyModStep x j ^^^ polyModStep y j = polyModStep (x ^^^ y) j := by
    simp only [polyModStep, BitVec.getLsbD_xor, xor_ite_bxor]
  rw [polyMod_eq, List.foldl_hom₂ (List.range 8) (· ^^^ ·) polyModStep polyModStep polyModStep x y step,
    BitVec.setWidth_xor]
  rfl

/-- Settles O19: both sides are linear in each operand, and they agree at the 64 pairs of single-bit bytes. -/
theorem gfMulIsThePolynomialProduct : Obligations.GfMulIsThePolynomialProduct := by
  unfold Obligations.GfMulIsThePolynomialProduct
  intro a b
  have basis : ∀ i j : Fin 8,
      gfMul (1#8 <<< i.val) (1#8 <<< j.val) = polyMod (polyMul (1#8 <<< i.val) (1#8 <<< j.val)) := by decide
  refine additive_ext (gfMul a) (fun y => polyMod (polyMul a y)) (gfMul_xor_right a)
    (fun x y => by simp only [polyMul_xor_right, polyMod_xor]) (fun j => ?_) b
  exact additive_ext (gfMul · (1#8 <<< j.val)) (fun x => polyMod (polyMul x (1#8 <<< j.val)))
    (fun x y => gfMul_xor_left x y _) (fun x y => by simp only [polyMul_xor_left, polyMod_xor]) (fun i => basis i j) a

/-! ## The field laws (R108) -/

/-- The square of a byte. -/
def gfSquare (a : Byte) : Byte := gfMul a a

/-- The square of a product is the product of the squares. -/
theorem gfSquare_gfMul (a b : Byte) : gfSquare (gfMul a b) = gfMul (gfSquare a) (gfSquare b) := by
  simp only [gfSquare]
  rw [gfMul_assoc, gfMul_assoc, ← gfMul_assoc b a b, gfMul_comm b a, gfMul_assoc]

/-- The power a^(2^n - 1) of a byte. -/
def gfPowOnes : Nat → Byte → Byte
  | 0, _ => 1
  | n + 1, a => gfMul a (gfSquare (gfPowOnes n a))

/-- The inverse of a non-zero byte: a^254, as the 255 non-zero bytes are a group under the product. -/
def gfInv (a : Byte) : Byte := gfSquare (gfPowOnes 7 a)

/-- In characteristic 2 squaring is additive. -/
theorem gfSquare_xor (a b : Byte) : gfSquare (a ^^^ b) = gfSquare a ^^^ gfSquare b := by
  calc gfSquare (a ^^^ b) = gfMul a a ^^^ gfMul b b ^^^ (gfMul a b ^^^ gfMul b a) := by
        simp only [gfSquare, gfMul_xor_left, gfMul_xor_right]
        ac_rfl
    _ = gfSquare a ^^^ gfSquare b := by rw [gfMul_comm b a, BitVec.xor_self, BitVec.xor_zero, gfSquare, gfSquare]

/-- The byte x is its own power 2^8, by way of its power 2^4. -/
theorem gfSquare_iterate_eight_two : gfSquare^[8] 0x02 = 0x02 := by
  have hfour : gfSquare^[4] 0x02 = 0x5E := by decide
  have hback : gfSquare^[4] 0x5E = 0x02 := by decide
  rw [Function.iterate_add_apply gfSquare 4 4, hfour, hback]

/-- Every byte is its own power 2^8: so are 1 and x, and squaring is additive and multiplicative. -/
theorem gfSquare_iterate_eight (a : Byte) : gfSquare^[8] a = a := by
  have hx (y : Byte) : gfSquare^[8] (xtime y) = xtime (gfSquare^[8] y) := by
    rw [← gfMul_two_left, Function.Semiconj₂.iterate gfSquare_gfMul 8, gfSquare_iterate_eight_two, gfMul_two_left]
  have hsquare : gfSquare 1 = 1 := gfMul_one_right 1
  have hone : gfSquare^[8] 1 = 1 := Function.iterate_fixed hsquare 8
  refine additive_ext gfSquare^[8] id (Function.Semiconj₂.iterate gfSquare_xor 8) (fun _ _ => rfl) (fun i => ?_) a
  calc gfSquare^[8] (1#8 <<< i.val) = gfSquare^[8] (xtime^[i.val] 1) := by rw [single_bit_eq]
    _ = xtime^[i.val] (gfSquare^[8] 1) := Function.Semiconj.iterate_right hx i.val 1
    _ = 1#8 <<< i.val := by rw [hone, single_bit_eq]

theorem gfMul_gfPowOnes (n : Nat) (a : Byte) : gfMul a (gfPowOnes n a) = gfSquare^[n] a := by
  induction n with
  | zero => exact gfMul_one_right a
  | succ n ih =>
    calc gfMul a (gfMul a (gfSquare (gfPowOnes n a))) = gfMul (gfSquare a) (gfSquare (gfPowOnes n a)) :=
          (gfMul_assoc a a _).symm
      _ = gfSquare (gfMul a (gfPowOnes n a)) := (gfSquare_gfMul _ _).symm
      _ = gfSquare^[n + 1] a := by rw [ih, Function.iterate_succ_apply']

/-- Only 0 and 1 are their own square. -/
theorem eq_zero_or_one_of_idempotent : ∀ e : Byte, gfMul e e = e → e = 0 ∨ e = 1 := by decide

/-- R108: e = a · a^254 leaves a unchanged under the product, since a · e is a^256. So e is its own square, that is 0 or 1,
and it is not 0 unless a is. -/
theorem gfMul_gfInv {a : Byte} (ha : a ≠ 0) : gfMul a (gfInv a) = 1 := by
  have hfix : gfMul a (gfMul a (gfInv a)) = a := (gfMul_gfPowOnes 8 a).trans (gfSquare_iterate_eight a)
  have hidem : gfMul (gfMul a (gfInv a)) (gfMul a (gfInv a)) = gfMul a (gfInv a) := by
    rw [gfMul_comm a (gfInv a), gfMul_assoc, gfMul_comm (gfInv a) a, hfix, gfMul_comm]
  refine (eq_zero_or_one_of_idempotent _ hidem).resolve_left fun hzero => ha ?_
  rw [← hfix, hzero, gfMul_zero_right]

/-- A non-zero byte cancels: multiplying the product by its inverse leaves the other operand. -/
theorem gfInv_mul_cancel {a : Byte} (ha : a ≠ 0) (b : Byte) : gfMul (gfInv a) (gfMul a b) = b := by
  rw [← gfMul_assoc, gfMul_comm _ a, gfMul_gfInv ha, gfMul_one_left]

/-- Settles O21: with an inverse for every non-zero byte, a product determines its other operand. -/
theorem gfMulIsFieldMultiplication : Obligations.GfMulIsFieldMultiplication := by
  unfold Obligations.GfMulIsFieldMultiplication
  refine ⟨gfMul_assoc, gfMul_xor_right, fun a b ha hab => ?_, fun a ha => ⟨gfInv a, gfMul_gfInv ha, fun c hac => ?_⟩,
    by decide, by decide, by decide⟩
  · rw [← gfInv_mul_cancel ha b, hab, gfMul_zero_right]
  · rw [← gfInv_mul_cancel ha c, hac]
    exact gfMul_one_right _

/-! ## MixColumns (R109, R125, R126, R127) -/

/-- R109: the multiple 03 is the multiple 02 and the byte itself. -/
theorem gfMul_three_left (x : Byte) : gfMul 0x03 x = gfMul 0x02 x ^^^ x := by
  rw [show (0x03 : Byte) = 0x02 ^^^ 0x01 from rfl, gfMul_xor_left]
  exact congrArg _ (gfMul_one_left x)

/-- Multiplication by x in closed form (R109). -/
theorem xtime_eq (x : Byte) : xtime x = (x <<< 1) ^^^ (if x.getLsbD 7 then 0x1B else 0x00) := by
  unfold xtime
  cases x.getLsbD 7
  · simp
  · rfl

/-- R125: the cell at row r of a column is row r of the matrix times the same column. -/
theorem cell_mixColumns (m : StateMatrix) (r c : Fin 4) :
    cell (mixColumns m) r c = gfMul (mixcolM r.val 0) (cell m 0 c) ^^^ gfMul (mixcolM r.val 1) (cell m 1 c)
      ^^^ gfMul (mixcolM r.val 2) (cell m 2 c) ^^^ gfMul (mixcolM r.val 3) (cell m 3 c) := by
  have hrow : (r.val + 4 * c.val) % 4 = r.val := by omega
  have hcol : (r.val + 4 * c.val) / 4 = c.val := by omega
  simp [cell, mixColumns_getElem, hrow, hcol, Nat.add_comm]

/-- R127: MixColumns is linear, as the product is linear in the byte. -/
theorem mixColumns_addRoundKey (m k : StateMatrix) :
    mixColumns (addRoundKey m k) = addRoundKey (mixColumns m) (mixColumns k) := by
  apply Vector.ext
  intro i hi
  simp only [addRoundKey_getElem, mixColumns_getElem, gfMul_xor_right]
  ac_rfl

/-- Settles O28: the rows of the matrix are put into R125, and the multiple 01 is the byte itself. -/
theorem mixColumnsClosedForm : Obligations.MixColumnsClosedForm := by
  unfold Obligations.MixColumnsClosedForm
  refine ⟨fun x => ⟨gfMul_one_left x, (gfMul_two_left x).trans (xtime_eq x), gfMul_three_left x⟩, fun m c => ?_,
    mixColumns_addRoundKey⟩
  have hone (x : Byte) : gfMul 1#8 x = x := gfMul_one_left x
  simp [cell_mixColumns, mixcolM, mixcolTable, hone]

end Sys2Proof.Machine

namespace Sys2Proof.Machine

/-! ## The AES S-box (R117, R118, R119) -/

/-- The affine map of the S-box undone: R118's table is regenerated as the field inverse followed by an affine map with
constant 0x63 (spec/93_implementation_defined.md, G1). -/
def aesAffineInv (y : Byte) : Byte := y.rotateLeft 1 ^^^ y.rotateLeft 3 ^^^ y.rotateLeft 6 ^^^ 0x05

theorem gfMul_aesAffineInv_aesSbox : ∀ x : Byte, x ≠ 0 → gfMul x (aesAffineInv (aesSbox x)) = 1 := by decide

theorem gfInv_zero : gfInv 0 = 0 := (congrArg gfSquare (gfMul_zero_left _)).trans (gfMul_zero_left 0)

/-- The table entry of a byte is its field inverse, up to the affine map. -/
theorem aesAffineInv_aesSbox (x : Byte) : aesAffineInv (aesSbox x) = gfInv x := by
  by_cases hx : x = 0
  · rw [hx, gfInv_zero]
    decide
  · rw [← gfInv_mul_cancel hx (aesAffineInv (aesSbox x)), gfMul_aesAffineInv_aesSbox x hx, gfMul_one_right]

theorem gfInv_involutive : Function.Involutive gfInv := by
  intro a
  by_cases ha : a = 0
  · rw [ha, gfInv_zero, gfInv_zero]
  · have hone : gfMul (gfInv a) a = 1 := by rw [gfMul_comm, gfMul_gfInv ha]
    have hinv : gfInv a ≠ 0 := fun hzero => by
      rw [hzero, gfMul_zero_left] at hone
      exact absurd hone (by decide)
    have hcancel := gfInv_mul_cancel hinv a
    rwa [hone, gfMul_one_right] at hcancel

/-- The S-box loses nothing, since the field inverse does not (R119). -/
theorem aesSbox_injective : Function.Injective aesSbox := by
  have hcomp : Function.Injective (aesAffineInv ∘ aesSbox) := by
    rw [show aesAffineInv ∘ aesSbox = gfInv from funext aesAffineInv_aesSbox]
    exact gfInv_involutive.injective
  exact hcomp.of_comp

/-- Settles O24: an injective map of the 256 bytes into themselves meets every byte; the fixed points and the reading
examples are looked up in the table. -/
theorem aesSboxIsABijection : Obligations.AesSboxIsABijection := by
  unfold Obligations.AesSboxIsABijection
  exact ⟨Finite.surjective_of_injective aesSbox_injective, fun _ _ h => aesSbox_injective h, by decide, by decide, by decide,
    by decide⟩

/-! ## The bytes of what the AES commands write (R16, R120, R130) -/

/-- The bits of the register at byte i of a packed block are that byte (R16). -/
theorem pack_extractLsb' (m : StateMatrix) {i : Nat} (h : i < 16) : (pack m).extractLsb' (120 - 8 * i) 8 = m[i] := by
  rw [← bytes_getElem _ h]
  simp only [bytes_pack]

/-- R130: the 128-bit exclusive-or is the byte-wise one. -/
theorem bytes_xor (v k : BitVec 128) : bytes (v ^^^ k) = addRoundKey (bytes v) (bytes k) := by
  apply Vector.ext
  intro i hi
  simp [BitVec.extractLsb'_xor]

/-- Settles O23: each byte of the packed block is the S-box entry of the same byte of `AES_S`. -/
theorem subBytesReplacesEveryByte : Obligations.SubBytesReplacesEveryByte := by
  unfold Obligations.SubBytesReplacesEveryByte
  refine ⟨fun s hh => ⟨_, exec_running hh .subbytes, rfl, fun i hi => ?_⟩, rfl, by decide, fun m i j h => ?_, by decide⟩
  · rw [pack_extractLsb' _ hi, subBytes_getElem, bytes_getElem]
  · rw [subBytes_getElem, subBytes_getElem, h]

/-- Settles O29: the exclusive-or of the registers, split into bytes by R130; the corner cases are laws of exclusive-or. -/
theorem addRoundKeyXorsTheKey : Obligations.AddRoundKeyXorsTheKey := by
  unfold Obligations.AddRoundKeyXorsTheKey
  refine ⟨fun s hh => exec_running hh .addrkey, fun v k => ⟨?_, fun i _ => BitVec.extractLsb'_xor⟩, rfl, fun v k => ?_,
    by decide⟩
  · rw [← bytes_xor, pack_bytes]
  · exact ⟨BitVec.xor_zero, BitVec.xor_self, by rw [BitVec.xor_assoc, BitVec.xor_self, BitVec.xor_zero]⟩

/-! ## ShiftRows (R121, R122, R123) -/

/-- R121: row r of the output is row r of the input rotated left by r. -/
theorem cell_shiftRows (m : StateMatrix) (r c : Fin 4) : cell (shiftRows m) r c = cell m r (c + r) := by
  have hsrc : shiftSrc (r.val + 4 * c.val) = r.val + 4 * (c + r).val := by
    simp only [shiftSrc, Fin.val_add]
    omega
  simp only [cell, shiftRows_getElem, hsrc]

/-- Settles O25: what SHIFTROWS writes is R121 cell by cell. -/
theorem shiftRowsRotatesRowRLeftByR : Obligations.ShiftRowsRotatesRowRLeftByR := by
  unfold Obligations.ShiftRowsRotatesRowRLeftByR
  refine fun s hh => ⟨_, exec_running hh .shiftrows, fun r c => ?_⟩
  rw [bytes_pack, cell_shiftRows]

/-- Four shifts of a row by r are a shift by 4r, back to the same position (R123). -/
theorem shiftSrc_four_times {i : Nat} (h : i < 16) : shiftSrc (shiftSrc (shiftSrc (shiftSrc i))) = i := by
  simp only [shiftSrc]
  omega

/-- The movement of the 16 bytes in ShiftRows, undone by moving them three times more (R122, R123). -/
def shiftSrcPerm : Equiv.Perm (Fin 16) where
  toFun i := ⟨shiftSrc i.val, shiftSrc_lt i.val⟩
  invFun i := ⟨shiftSrc (shiftSrc (shiftSrc i.val)), shiftSrc_lt _⟩
  left_inv i := Fin.ext (shiftSrc_four_times i.isLt)
  right_inv i := Fin.ext (shiftSrc_four_times i.isLt)

theorem toList_eq_ofFn (m : StateMatrix) : m.toList = List.ofFn fun i : Fin 16 => m[i.val] := by
  rw [← Vector.toList_ofFn]
  simp

/-- R123: ShiftRows only moves bytes. -/
theorem shiftRows_perm (m : StateMatrix) : (shiftRows m).toList.Perm m.toList := by
  rw [toList_eq_ofFn, toList_eq_ofFn]
  simp only [shiftRows_getElem]
  exact shiftSrcPerm.ofFn_comp_perm fun i => m[i.val]

/-- Settles O26: ShiftRows moves the bytes along a permutation of the 16 positions, of order dividing four. -/
theorem shiftRowsFourTimesIsTheIdentity : Obligations.ShiftRowsFourTimesIsTheIdentity := by
  unfold Obligations.ShiftRowsFourTimesIsTheIdentity
  refine ⟨fun m => Vector.ext fun i hi => ?_, fun x => Vector.ext fun i hi => ?_, fun m x => (shiftRows_perm m).count_eq x,
    by decide⟩
  · simp only [shiftRows_getElem, shiftSrc_four_times hi]
  · simp

/-! ## MIXCOLS and AESROUND (R125, R127, R134, R135) -/

/-- Settles O27: what MIXCOLS writes is R125 cell by cell. -/
theorem mixColumnsMultipliesEveryColumn : Obligations.MixColumnsMultipliesEveryColumn := by
  unfold Obligations.MixColumnsMultipliesEveryColumn
  refine fun s hh => ⟨_, exec_running hh .mixcols, fun row c => ?_⟩
  rw [bytes_pack, cell_mixColumns]

/-- Settles O30: the key is added to the packed t3, which R130 says byte by byte; the corner and the example are evaluated. -/
theorem aesRoundComposesTheFourStages : Obligations.AesRoundComposesTheFourStages := by
  unfold Obligations.AesRoundComposesTheFourStages
  refine ⟨fun s hh => ?_, rfl, by decide, by decide, by decide, by decide, by decide⟩
  have hround : bytes (pack (mixColumns (shiftRows (subBytes (bytes s.engine.aesS)))) ^^^ s.engine.aesK)
      = aesRound (bytes s.engine.aesS) (bytes s.engine.aesK) := by rw [bytes_xor, bytes_pack, aesRound]
  exact ⟨_, exec_running hh .aesround, rfl, hround, hround⟩

/-! ## A round stage by stage (R136) -/

/-- One stage of a round and the MOV of its value back to `AES_S`: the rest of the host program starts with the value in both
registers (R93, R136). -/
theorem perform_stage {s : State} {i : Instr} {v : BitVec 128} (hh : s.engine.halted = false)
    (hi : ruleOf i s.engine = s.engine.withAesO v) (p : HostProg) :
    ((HostProg.run i).seq ((HostProg.mov 0x00#8 0x02#8).seq p)).perform s
      = p.perform { s with engine := { s.engine with aesO := v, aesS := v }, response := none } := by
  have hrun : (HostProg.run i).perform s = .next { s with engine := s.engine.withAesO v, response := none } := by
    rw [← hi]
    exact issue_command hh i
  rw [perform_seq hrun]
  exact perform_seq (perform_mov (dst := .aesS) (src := .aesO) hh rfl v.isLt)

/-- Settles O31: each of the first three stages finds in `AES_S` what the stage before it wrote to `AES_O`, and ADDRKEY finds
t3. -/
theorem stagewiseRoundEqualsAesRound : Obligations.StagewiseRoundEqualsAesRound := by
  unfold Obligations.StagewiseRoundEqualsAesRound
  intro s t hh ht
  rw [exec_running hh] at ht
  cases ht
  obtain ⟨t3, ht3⟩ : ∃ t3, t3 = pack (mixColumns (shiftRows (subBytes (bytes s.engine.aesS)))) := ⟨_, rfl⟩
  refine ⟨{ s with engine := { s.engine with aesS := t3, aesO := t3 ^^^ s.engine.aesK }, response := none }, t3, ?_, ht3, ?_,
    rfl⟩
  · refine (perform_stage hh rfl _).trans ((perform_stage (by exact hh) rfl _).trans
      ((perform_stage (by exact hh) rfl _).trans ?_))
    simp only [bytes_pack, ← ht3]
    exact issue_command (by exact hh) .addrkey
  · rw [ht3]
    rfl

/-! ## What a byte contributes to its column in MixColumns (R108, R124) -/

/-- A non-zero coefficient keeps different bytes different (R108). -/
theorem gfMul_right_injective {a : Byte} (ha : a ≠ 0) : Function.Injective (gfMul a) :=
  Function.LeftInverse.injective (gfInv_mul_cancel ha)

theorem mixcolM_ne_zero : ∀ row < 4, ∀ k < 4, mixcolM row k ≠ 0 := by decide

/-- What byte k of its column contributes to output byte j of MixColumns (R125). -/
def mixTerm (m : StateMatrix) (j : Fin 16) (k : Fin 4) : Byte := gfMul (mixcolM (j.val % 4) k.val) m[4 * (j.val / 4) + k.val]

theorem mixColumns_eq_mixTerms (m : StateMatrix) (j : Fin 16) :
    (mixColumns m)[j.val] = mixTerm m j 0 ^^^ mixTerm m j 1 ^^^ mixTerm m j 2 ^^^ mixTerm m j 3 :=
  mixColumns_getElem m j.isLt

/-- As no coefficient is zero, two bytes contribute alike only when they are equal. -/
theorem mixTerm_inj {m m' : StateMatrix} {j : Fin 16} {k : Fin 4} :
    mixTerm m j k = mixTerm m' j k ↔ m[4 * (j.val / 4) + k.val] = m'[4 * (j.val / 4) + k.val] :=
  (gfMul_right_injective (mixcolM_ne_zero _ (Nat.mod_lt _ (by decide)) _ k.isLt)).eq_iff

/-- Two sums of four bytes whose terms agree but for one differ exactly when that term does. -/
theorem xor_four_ne_iff {f g : Fin 4 → Byte} (k : Fin 4) (h : ∀ i, i ≠ k → f i = g i) :
    f 0 ^^^ f 1 ^^^ f 2 ^^^ f 3 ≠ g 0 ^^^ g 1 ^^^ g 2 ^^^ g 3 ↔ f k ≠ g k := by
  match k with
  | 0 => simp [h 1, h 2, h 3]
  | 1 => simp [h 0, h 2, h 3]
  | 2 => simp [h 0, h 1, h 3]
  | 3 => simp [h 0, h 1, h 2]

/-! ## The avalanche of one flipped bit (R137) -/

/-- Two blocks that differ at byte q and at no other. -/
def DifferOnlyAt (q : Fin 16) (m m' : StateMatrix) : Prop := ∀ j : Fin 16, m[j.val] ≠ m'[j.val] ↔ j = q

/-- A single bit lies in byte 15 - i/8 of the register, and every other byte is zero (R16). -/
theorem extractLsb'_single_bit_eq_zero_iff {i j : Nat} (hi : i < 128) (hj : j < 16) :
    (1#128 <<< i).extractLsb' (120 - 8 * j) 8 = 0#8 ↔ j ≠ 15 - i / 8 := by
  have hbit (k : Nat) : ((1#128 <<< i).extractLsb' (120 - 8 * j) 8).getLsbD k = decide (k < 8 ∧ i = 120 - 8 * j + k) := by
    rw [← BitVec.twoPow_eq, BitVec.getLsbD_extractLsb', BitVec.getLsbD_twoPow]
    simp [hi]
  constructor
  · intro hzero hj'
    have hset := hbit (i % 8)
    rw [hzero, BitVec.getLsbD_zero, eq_comm, decide_eq_false_iff_not] at hset
    omega
  · intro hne
    apply BitVec.eq_of_getLsbD_eq
    intro k hk
    rw [hbit, BitVec.getLsbD_zero, decide_eq_false_iff_not]
    omega

/-- Flipping bit i of a register changes byte 15 - i/8 and no other (R16). -/
theorem differOnlyAt_bytes_flip (v : BitVec 128) {i : Nat} (hi : i < 128) :
    DifferOnlyAt ⟨15 - i / 8, by omega⟩ (bytes v) (bytes (v ^^^ (1#128 <<< i))) := by
  intro j
  have hflip (x d : Byte) : x = x ^^^ d ↔ d = 0#8 := by
    rw [eq_comm (a := d), ← BitVec.xor_right_inj x (x := 0#8), BitVec.xor_zero]
  rw [bytes_getElem, bytes_getElem, BitVec.extractLsb'_xor, ne_eq, hflip, extractLsb'_single_bit_eq_zero_iff hi j.isLt,
    not_not, Fin.ext_iff]

section
variable {q : Fin 16} {m m' : StateMatrix} (h : DifferOnlyAt q m m')
include h

/-- The S-box is injective, so SubBytes keeps which bytes differ (R119, R120). -/
theorem differOnlyAt_subBytes : DifferOnlyAt q (subBytes m) (subBytes m') := by
  intro j
  rw [subBytes_getElem, subBytes_getElem, aesSbox_injective.ne_iff]
  exact h j

/-- ShiftRows moves the byte that differs (R123). -/
theorem differOnlyAt_shiftRows : DifferOnlyAt (shiftSrcPerm.symm q) (shiftRows m) (shiftRows m') := by
  intro j
  rw [shiftRows_getElem, shiftRows_getElem, Equiv.eq_symm_apply]
  exact h (shiftSrcPerm j)

/-- The byte that differs reaches all four bytes of its column, by a non-zero coefficient each, and no other (R125). -/
theorem mixColumns_ne_iff (j : Fin 16) : (mixColumns m)[j.val] ≠ (mixColumns m')[j.val] ↔ j.val / 4 = q.val / 4 := by
  let k : Fin 4 := ⟨q.val % 4, Nat.mod_lt _ (by decide)⟩
  have hcell (i : Fin 4) : mixTerm m j i ≠ mixTerm m' j i ↔ 4 * (j.val / 4) + i.val = q.val := by
    rw [ne_eq, mixTerm_inj]
    exact (h ⟨4 * (j.val / 4) + i.val, by omega⟩).trans Fin.ext_iff
  have hsame (i : Fin 4) (hi : i ≠ k) : mixTerm m j i = mixTerm m' j i := by
    by_contra hne
    have hpos := (hcell i).mp hne
    exact hi (Fin.ext (by simp only [k]; omega))
  rw [mixColumns_eq_mixTerms, mixColumns_eq_mixTerms, xor_four_ne_iff k hsame, hcell]
  simp only [k]
  omega

/-- The key falls out of the comparison of two rounds (R130, R134). -/
theorem aesRound_ne_iff (k : StateMatrix) (j : Fin 16) :
    (aesRound m k)[j.val] ≠ (aesRound m' k)[j.val] ↔ j.val / 4 = (shiftSrcPerm.symm q).val / 4 := by
  rw [aesRound, aesRound, addRoundKey_getElem, addRoundKey_getElem, ne_eq, BitVec.xor_left_inj]
  exact mixColumns_ne_iff (differOnlyAt_shiftRows (differOnlyAt_subBytes h)) j

end

/-- Settles O32: the flipped bit changes one byte, which SubBytes keeps, ShiftRows moves and MixColumns spreads over its
column. -/
theorem oneFlippedBitChangesAWholeColumn : Obligations.OneFlippedBitChangesAWholeColumn := by
  unfold Obligations.OneFlippedBitChangesAWholeColumn
  exact fun v k i hi => ⟨_, by omega, aesRound_ne_iff (differOnlyAt_bytes_flip v hi) (bytes k)⟩

end Sys2Proof.Machine

namespace Sys2Proof.Machine

/-! ## The ROM tables (R124, R147, R150 to R154, R168, R176) -/

theorem permTableWf_iff {n m : Nat} {T : List Nat} :
    permTableWf n m T = true ↔ T.length = m ∧ ∀ q ∈ T, 1 ≤ q ∧ q ≤ n := by
  simp [permTableWf]

/-- The five tables of R147 name positions of their source, and their results fit `PERM_OUT`. -/
theorem romRows_wf :
    ∀ row ∈ romRows, permTableWf row.nReq row.table.length row.table = true ∧ row.table.length ≤ 64 := by decide

/-- IP, FP, P and PC-2 repeat no entry (R150, R151, R153, R154). -/
theorem romTables_nodup : tIP.Nodup ∧ tFP.Nodup ∧ tP.Nodup ∧ tPC2.Nodup := by decide

/-- E names every source position once or twice (R152). -/
theorem tE_count (q : Fin 32) : tE.count (q.val + 1) = 1 ∨ tE.count (q.val + 1) = 2 := by
  revert q
  decide

/-- Settles O37: every table is a finite constant, and each fact about it is evaluated. -/
theorem romTablesHaveTheirShape : Obligations.RomTablesHaveTheirShape := by
  unfold Obligations.RomTablesHaveTheirShape
  obtain ⟨hIP, hFP, hP, hPC2⟩ := romTables_nodup
  exact ⟨by decide, by decide, by decide, by decide, by decide, hIP, hFP, hP, hPC2, tE_count,
    by decide, by decide, by decide, by decide, by decide, by decide, by decide, by decide⟩

/-! ## IP and FP (R150, R151, R155) -/

/-- The table that names every position in its order permutes nothing (R141). -/
theorem permute_identity (s : BitString) : permute s ((List.range s.length).map (· + 1)) = s := by
  apply bitString_ext (by simp)
  intro p hp
  rw [bitAt_permute s (by simpa using hp)]
  simp

/-- Two tables on n positions undo each other when each entry of the second is where the first put that position (R155). -/
theorem permute_permute_cancel {s : BitString} {T U : List Nat} (hU : ∀ q ∈ U, 1 ≤ q ∧ q ≤ T.length)
    (hTU : (U.map fun q => T.getD (q - 1) 0) = (List.range s.length).map (· + 1)) : permute (permute s T) U = s := by
  rw [permute_permute s hU, hTU, permute_identity]

theorem permute_tIP_tFP {s : BitString} (h : s.length = 64) : permute (permute s tIP) tFP = s :=
  permute_permute_cancel (by decide) (by rw [h]; decide)

theorem permute_tFP_tIP {s : BitString} (h : s.length = 64) : permute (permute s tFP) tIP = s :=
  permute_permute_cancel (by decide) (by rw [h]; decide)

/-- On 64-bit registers tables undo each other when they do so on the strings (R14, R143). -/
theorem permReg_permReg_cancel {T U : List Nat} (hT : T.length = 64)
    (h : ∀ {s : BitString}, s.length = 64 → permute (permute s T) U = s) (v : BitVec 64) :
    permReg (permReg v 64 T) 64 U = v := by
  unfold permReg
  rw [str_ofNat_val (by rw [permute_length, hT]), h (str_length _ _), ofNat_val_str]

/-- Settles O38: composed either way the two tables name every position in its order. -/
theorem ipAndFpAreMutualInverses : Obligations.IpAndFpAreMutualInverses := by
  unfold Obligations.IpAndFpAreMutualInverses
  exact ⟨fun s h => ⟨permute_tIP_tFP h, permute_tFP_tIP h⟩,
    fun v => ⟨permReg_permReg_cancel rfl permute_tIP_tFP v, permReg_permReg_cancel rfl permute_tFP_tIP v⟩⟩

/-! ## What the checks of the PERM commands ask (R144, R145) -/

section checks
variable {e : Engine}

theorem usrLengthBad_iff : usrLengthBad e = true ↔ 64 < e.permSrclen.toNat ∨ 64 < e.permTlen.toNat := by
  rw [usrLengthBad, Bool.or_eq_true, decide_eq_true_eq, decide_eq_true_eq, Config.permMax]

theorem srcTooLong_iff : srcTooLong e = true ↔ 2 ^ e.permSrclen.toNat ≤ e.permSrc.toNat := by
  simp [srcTooLong]

theorem usrLengthBad_eq_false (hn : e.permSrclen.toNat ≤ 64) (hm : e.permTlen.toNat ≤ 64) : usrLengthBad e = false := by
  rw [← Bool.not_eq_true, usrLengthBad_iff]
  omega

theorem srcTooLong_eq_false (h : e.permSrc.toNat < 2 ^ e.permSrclen.toNat) : srcTooLong e = false := by
  rw [← Bool.not_eq_true, srcTooLong_iff]
  exact Nat.not_le.mpr h

/-- The table of PERM.USR holds the entries of `PERM_TBL` below `PERM_TLEN` (R36, R40). -/
theorem mem_userTable {q : Nat} :
    q ∈ e.userTable ↔ ∃ i : Fin 64, i.val < e.permTlen.toNat ∧ (e.permTbl[i.val]).toNat = q := by
  simp only [Engine.userTable, List.mem_map, List.mem_take_iff_getElem]
  constructor
  · rintro ⟨_, ⟨i, hi, rfl⟩, rfl⟩
    obtain ⟨hm, h64⟩ : i < e.permTlen.toNat ∧ i < 64 := by simpa using hi
    exact ⟨⟨i, h64⟩, hm, by simp⟩
  · rintro ⟨i, hm, rfl⟩
    exact ⟨_, ⟨i, by simpa using hm, rfl⟩, by simp⟩

theorem userTable_getD {i : Fin 64} (hi : i.val < e.permTlen.toNat) :
    e.userTable.getD i.val 0 = (e.permTbl[i.val]).toNat := by
  simp [Engine.userTable, hi]

theorem tableIndexBad_iff : tableIndexBad e = true ↔ ∃ i : Fin 64, i.val < e.permTlen.toNat ∧
    ((e.permTbl[i.val]).toNat = 0 ∨ e.permSrclen.toNat < (e.permTbl[i.val]).toNat) := by
  simp only [tableIndexBad, List.any_eq_true, mem_userTable, Bool.or_eq_true, decide_eq_true_eq, exists_exists_and_eq_and]

/-! PERM.USR, one equation per outcome, in the order of its checks (R144, R145, R146). -/

theorem permUsr_badLength (h : usrLengthBad e = true ∨ srcTooLong e = true) : permUsr e = e.raise .length := by
  rcases h with h | h
  · simp [permUsr, h]
  · simp [permUsr, h]

theorem permUsr_badEntry (hlen : usrLengthBad e = false) (hsrc : srcTooLong e = false) (hidx : tableIndexBad e = true) :
    permUsr e = e.raise .tableIndex := by
  simp [permUsr, hlen, hsrc, hidx]

theorem permUsr_output (hlen : usrLengthBad e = false) (hsrc : srcTooLong e = false) (hidx : tableIndexBad e = false) :
    permUsr e = e.withPermOut (permReg e.permSrc e.permSrclen.toNat e.userTable) e.permTlen := by
  simp [permUsr, hlen, hsrc, hidx, permOutput, userTable_length hlen]

/-! A ROM-table command, one equation per outcome (R144, R147). -/

theorem permRom_badLength {n : Nat} (T : List Nat) (h : e.permSrclen.toNat ≠ n ∨ srcTooLong e = true) :
    permRom n T e = e.raise .length := by
  rcases h with h | h
  · simp [permRom, h]
  · simp [permRom, h]

theorem permRom_output {n : Nat} (T : List Nat) (hn : e.permSrclen.toNat = n) (hsrc : srcTooLong e = false) :
    permRom n T e = permOutput e n T := by
  simp [permRom, hn, hsrc]

end checks

/-- The five rows of R147 name the commands whose rule is `permRom` with the row's length and table. -/
theorem ruleOf_romRow : ∀ row ∈ romRows, ruleOf row.instr = permRom row.nReq row.table := by
  simp [romRows, ruleOf]

/-- Settles O34: each hypothesis is one of the two checks failing, and a 64-bit source has no bit at position 64. -/
theorem permCommandsCheckLengthsFirst : Obligations.PermCommandsCheckLengthsFirst := by
  unfold Obligations.PermCommandsCheckLengthsFirst
  refine ⟨fun s hh hbad => ?_, fun row hrow s hh hbad => ?_, fun e hn => ?_⟩
  · rw [← or_assoc, ← usrLengthBad_iff, ← srcTooLong_iff] at hbad
    rw [exec_running hh, ruleOf, permUsr_badLength hbad]
  · rw [← srcTooLong_iff] at hbad
    rw [exec_running hh, ruleOf_romRow row hrow, permRom_badLength row.table hbad]
  · rw [hn]
    exact e.permSrc.isLt

/-! ## What the PERM commands write (R143, R146, R147) -/

/-- A table fit for its source permutes register bit by register bit, with zeros above (R143). -/
theorem permReg_of_wf {n m : Nat} {T : List Nat} (hT : permTableWf n m T = true) (hm : m ≤ 64) (src : BitVec 64) :
    (∀ i < m, (permReg src n T).getLsbD (m - 1 - i) = src.getLsbD (n - T.getD i 0)) ∧
      (permReg src n T).toNat < 2 ^ m := by
  obtain ⟨rfl, hent⟩ := permTableWf_iff.mp hT
  refine ⟨fun i hi => ?_, permReg_lt hm⟩
  obtain ⟨h1, hn⟩ := hent T[i] (List.getElem_mem hi)
  rw [permReg_getLsbD hi hm h1 hn, List.getD_eq_getElem T 0 hi]

/-- Once its checks pass, PERM.USR has a table fit for its source (R144, R145). -/
theorem userTable_wf {e : Engine} (hlen : usrLengthBad e = false) (hidx : tableIndexBad e = false) :
    permTableWf e.permSrclen.toNat e.permTlen.toNat e.userTable = true := by
  refine permTableWf_iff.mpr ⟨userTable_length hlen, fun q hq => ?_⟩
  have hq' : ¬(q = 0 ∨ e.permSrclen.toNat < q) := by simpa using List.any_eq_false.mp hidx q hq
  omega

/-- Settles O33: the checks pass, so the outputs are written from a table fit for the source; the examples are evaluated. -/
theorem permUsrPermutesByTheTableRam : Obligations.PermUsrPermutesByTheTableRam := by
  unfold Obligations.PermUsrPermutesByTheTableRam
  refine ⟨fun s hh hn hm hsrc hent => ?_, by decide, by decide, by decide⟩
  have hlen := usrLengthBad_eq_false hn hm
  have hidx : tableIndexBad s.engine = false := by
    rw [← Bool.not_eq_true, tableIndexBad_iff]
    rintro ⟨i, hi, hbad⟩
    obtain ⟨h1, hle⟩ := hent i hi
    omega
  obtain ⟨hbits, habove⟩ := permReg_of_wf (userTable_wf hlen hidx) hm s.engine.permSrc
  refine ⟨_, ?_, fun i hi => ?_, habove⟩
  · rw [exec_running hh, ruleOf, permUsr_output hlen (srcTooLong_eq_false hsrc) hidx, Engine.withPermOut]
  · rw [hbits i hi, userTable_getD hi]

/-- Settles O36: the checks pass, and the row's table is fit for its source; the examples are evaluated. -/
theorem romPermCommandsPermuteByTheirTable : Obligations.RomPermCommandsPermuteByTheirTable := by
  unfold Obligations.RomPermCommandsPermuteByTheirTable
  refine ⟨fun row hrow s hh hn hsrc => ?_, by decide, by decide, by decide, by decide, by decide⟩
  obtain ⟨hT, hm⟩ := romRows_wf row hrow
  have hfits : srcTooLong s.engine = false := srcTooLong_eq_false (by rwa [hn])
  refine ⟨_, ?_, permReg_of_wf hT hm s.engine.permSrc⟩
  rw [exec_running hh, ruleOf_romRow row hrow, permRom_output row.table hn hfits, permOutput, Engine.withPermOut]

/-! ## A bad entry of the table RAM (R145) -/

section tableRam
variable {e : Engine}

/-- PERM.USR writes no entry of the table RAM (R146). -/
theorem permUsr_permTbl : (permUsr e).permTbl = e.permTbl := by
  rcases permUsr_cases e with ⟨h, -⟩ | ⟨h, -⟩ | ⟨h, -⟩
  · rw [h, Engine.raise_permTbl]
  · rw [h, Engine.raise_permTbl]
  · rw [h, permOutput, Engine.withPermOut_permTbl]

/-- Another table RAM with the same entries below `PERM_TLEN` changes nothing else of what PERM.USR does (R145). -/
theorem permUsr_of_userTable_eq {tbl : Vector (BitVec 7) 64} (hT : { e with permTbl := tbl }.userTable = e.userTable) :
    permUsr { e with permTbl := tbl } = { permUsr e with permTbl := tbl } := by
  have hidx : tableIndexBad { e with permTbl := tbl } = tableIndexBad e := by rw [tableIndexBad, tableIndexBad, hT]
  rcases permUsr_cases e with ⟨h, hbad⟩ | ⟨h, hlen, hsrc, hbad⟩ | ⟨-, hlen, hsrc, hgood⟩
  · rw [h]
    exact permUsr_badLength hbad
  · rw [h]
    exact permUsr_badEntry hlen hsrc (hidx.trans hbad)
  · have hout := permUsr_output (e := { e with permTbl := tbl }) hlen hsrc (hidx.trans hgood)
    rw [hout, hT, permUsr_output hlen hsrc hgood]
    rfl

/-- The entries at and above `PERM_TLEN` are not in the table of PERM.USR (R40). -/
theorem userTable_set {i : Fin 64} (hi : e.permTlen.toNat ≤ i.val) (v : BitVec 7) :
    { e with permTbl := e.permTbl.set i.val v }.userTable = e.userTable := by
  refine userTable_congr rfl fun j hj => ?_
  have hne : i.val ≠ j.val := by
    have : j.val < e.permTlen.toNat := hj
    omega
  exact Vector.getElem_set_ne i.isLt j.isLt hne

/-- With n = 0 every entry is 0 or above n, so a table that is not empty is refused (R145). -/
theorem tableIndexBad_of_srclen_zero (hn : e.permSrclen = 0) (hm : 1 ≤ e.permTlen.toNat) : tableIndexBad e = true := by
  refine tableIndexBad_iff.mpr ⟨0, hm, ?_⟩
  rw [hn]
  exact Nat.eq_zero_or_pos _

/-- With n = 0 and m = 0 PERM.USR writes the empty string (R145). -/
theorem permUsr_empty (hn : e.permSrclen = 0) (hsrc : e.permSrc = 0) (hm : e.permTlen = 0) :
    permUsr e = e.withPermOut 0 0 := by
  have hT : e.userTable = [] := by simp [Engine.userTable, hm]
  have hidx : tableIndexBad e = false := by rw [tableIndexBad, hT, List.any_nil]
  rw [permUsr_output (usrLengthBad_eq_false (by simp [hn]) (by simp [hm])) (srcTooLong_eq_false (by simp [hn, hsrc])) hidx,
    hT, hm]
  rfl

end tableRam

/-- An entry at or above `PERM_TLEN` is kept by PERM.USR and has no part in what it does, halted or not (R145). -/
theorem exec_permUsr_unexamined {s t : State} {i : Fin 64} (v : BitVec 7) (hi : s.engine.permTlen.toNat ≤ i.val)
    (h : exec .permUsr s = .next t) :
    exec .permUsr { s with engine := { s.engine with permTbl := s.engine.permTbl.set i.val v } }
      = .next { t with engine := { t.engine with permTbl := t.engine.permTbl.set i.val v } } := by
  cases hh : s.engine.halted with
  | true =>
    rw [exec_halted hh] at h
    cases h
    exact exec_halted (by exact hh) .permUsr
  | false =>
    rw [exec_running hh] at h
    cases h
    rw [exec_running (by exact hh), ruleOf, permUsr_of_userTable_eq (userTable_set hi v), permUsr_permTbl]

/-- Settles O35: the length checks pass, so what PERM.USR does turns on its table. -/
theorem permUsrHaltsOnABadEntry : Obligations.PermUsrHaltsOnABadEntry := by
  unfold Obligations.PermUsrHaltsOnABadEntry
  refine ⟨fun s hh hn hm hsrc hbad => ⟨?_, by simp⟩, fun s hh hn hsrc h1 hm => ?_, fun s hh hn hsrc hm => ?_,
    fun s t i v => exec_permUsr_unexamined v⟩
  · rw [exec_running hh, ruleOf, permUsr_badEntry (usrLengthBad_eq_false hn hm) (srcTooLong_eq_false hsrc)
      (tableIndexBad_iff.mpr hbad)]
  · rw [exec_running hh, ruleOf, permUsr_badEntry (usrLengthBad_eq_false (by simp [hn]) hm)
      (srcTooLong_eq_false (by simp [hn, hsrc])) (tableIndexBad_of_srclen_zero hn h1)]
  · rw [exec_running hh, ruleOf, permUsr_empty hn hsrc hm, Engine.withPermOut]

end Sys2Proof.Machine

namespace Sys2Proof.Machine

/-! ## Registers as strings: the string functions on a register are the register operations (R14, R15, R141) -/

/-- Position p of a register's string is bit p of the register counted from its most significant bit (R14). -/
theorem bitAt_str_getMsbD {w : Nat} (x : BitVec w) {p : Nat} (h : p < w) : bitAt (str x.toNat w) p = x.getMsbD p := by
  rw [bitAt_str_reg x h, BitVec.getMsbD_eq_getLsbD, decide_eq_true h, Bool.true_and]

/-- A string of the register's width whose positions are the register's bits is the register's string. -/
theorem eq_str_of_getMsbD {w : Nat} {s : BitString} {x : BitVec w} (hl : s.length = w)
    (h : ∀ p < w, bitAt s p = x.getMsbD p) : s = str x.toNat w := by
  refine bitString_ext (by rw [hl, str_length]) fun p hp => ?_
  rw [hl] at hp
  rw [h p hp, bitAt_str_getMsbD x hp]

/-- A substring is a bit field of the register (R13). -/
theorem substr_str {w : Nat} (x : BitVec w) {a b : Nat} (hab : a ≤ b) (hb : b < w) :
    substr (str x.toNat w) a b = str (x.extractLsb' (w - 1 - b) (b + 1 - a)).toNat (b + 1 - a) := by
  refine eq_str_of_getMsbD (substr_length (by rwa [str_length]) hab) fun p hp => ?_
  have hfield : w - 1 - b + (b + 1 - a) - p ≤ w := by omega
  have hpos : w - (w - 1 - b + (b + 1 - a) - p) = a + p := by omega
  rw [bitAt_substr (by omega), bitAt_str_getMsbD x (by omega), BitVec.getMsbD_extractLsb', hpos]
  simp [hp, hfield]

/-- `rotl` is the register's rotation to the left (R15). -/
theorem rotl_str {w : Nat} (x : BitVec w) (k : Nat) : rotl (str x.toNat w) k = str (x.rotateLeft k).toNat w := by
  refine eq_str_of_getMsbD (by simp) fun p hp => ?_
  have hmod : (p + k) % w < w := Nat.mod_lt _ (by omega)
  rw [bitAt_rotl _ (by rwa [str_length]), str_length, bitAt_str_getMsbD x hmod, BitVec.getMsbD_rotateLeft,
    decide_eq_true hp, Bool.true_and, Nat.add_comm]

/-- One string after another is the register of the two side by side. -/
theorem str_append_str {m n : Nat} (x : BitVec m) (y : BitVec n) :
    str x.toNat m ++ str y.toNat n = str (x ++ y).toNat (m + n) := by
  refine eq_str_of_getMsbD (by simp) fun p hp => ?_
  rw [BitVec.getMsbD_append]
  split
  next h => rw [bitAt_append_right (by rwa [str_length]), str_length, bitAt_str_getMsbD y (by omega)]
  next h => rw [bitAt_append_left (by rw [str_length]; omega), bitAt_str_getMsbD x (by omega)]

/-- The register view of a permutation by a table fit for its source (R141): `out[m-1-i] = src[n - T[i]]`. -/
theorem getLsbD_ofNat_val_permute {n m : Nat} {T : List Nat} (hT : permTableWf n m T = true) (x : BitVec n) {i : Nat}
    (hi : i < m) :
    (BitVec.ofNat m (val (permute (str x.toNat n) T))).getLsbD (m - 1 - i) = x.getLsbD (n - T.getD i 0) := by
  obtain ⟨rfl, hent⟩ := permTableWf_iff.mp hT
  obtain ⟨h1, hn⟩ := hent T[i] (List.getElem_mem hi)
  have hpos : n - 1 - (T[i] - 1) = n - T[i] := by omega
  have hbit := getLsbD_ofNat_val (w := T.length) (s := permute (str x.toNat n) T) (by rwa [permute_length])
    (permute_length _ _).le
  rw [permute_length, bitAt_permute _ hi, bitAt_str_reg x (by omega), hpos] at hbit
  rw [hbit, List.getD_eq_getElem T 0 hi]

/-- Two rotations to the left are one by the sum of the two (R15). -/
theorem rotateLeft_rotateLeft {w : Nat} (x : BitVec w) (j k : Nat) :
    (x.rotateLeft j).rotateLeft k = x.rotateLeft (j + k) := by
  refine BitVec.eq_of_getMsbD_eq fun p hp => ?_
  have hmod : (k + p) % w < w := Nat.mod_lt _ (by omega)
  simp [BitVec.getMsbD_rotateLeft, hp, hmod, Nat.add_assoc]

/-! ## The DES key schedule (R166, R167, R169) -/

/-- The key with each half rotated left by k places, as a register. -/
def rotatedHalves (key : BitVec 56) (k : Nat) : BitVec 56 :=
  (key.extractLsb' 28 28).rotateLeft k ++ (key.extractLsb' 0 28).rotateLeft k

/-- `val(permute(str(v, 56), PC2))` on register values. -/
def pc2Reg (v : BitVec 56) : BitVec 48 := BitVec.ofNat 48 (val (permute (str v.toNat 56) tPC2))

/-- The round keys are PC-2 of the halves rotated by 1 and by 2, the shifts of R168 added up (R166). -/
theorem roundKeys_eq (key : BitVec 56) :
    roundKeys key = (pc2Reg (rotatedHalves key 1), pc2Reg (rotatedHalves key 2)) := by
  have hc : substr (str key.toNat 56) 0 27 = str (key.extractLsb' 28 28).toNat 28 := substr_str key (by omega) (by omega)
  have hd : substr (str key.toNat 56) 28 55 = str (key.extractLsb' 0 28).toNat 28 := substr_str key (by omega) (by omega)
  have h1 : shiftAmount 0 = 1 := rfl
  have h2 : shiftAmount 1 = 1 := rfl
  simp only [roundKeys, keySchedule, hc, hd, h1, h2, rotl_str, rotateLeft_rotateLeft, str_append_str, pc2Reg, rotatedHalves]

/-- PC-2 selects 48 of 56 positions (R154). -/
theorem tPC2_wf : permTableWf 56 48 tPC2 = true := by decide

/-- Bit 47-i of PC-2's result is the bit its entry i names (R154). -/
theorem pc2Reg_getLsbD (v : BitVec 56) {i : Nat} (hi : i < 48) :
    (pc2Reg v).getLsbD (47 - i) = v.getLsbD (56 - tPC2.getD i 0) :=
  getLsbD_ofNat_val_permute tPC2_wf v hi

/-- DESKS by its round keys in register terms (R167, R170). -/
theorem ruleOf_desks (e : Engine) :
    ruleOf .desks e = e.withDesKeys (pc2Reg (rotatedHalves e.desKey 1)) (pc2Reg (rotatedHalves e.desKey 2)) := by
  simp only [ruleOf, roundKeys_eq]

/-- Settles O39: DESKS writes the two round keys, each of them PC-2 of the rotated halves; the examples are evaluated. -/
theorem desksDerivesBothRoundKeys : Obligations.DesksDerivesBothRoundKeys := by
  unfold Obligations.DesksDerivesBothRoundKeys
  refine ⟨fun s hh => ?_, by decide, by decide, by decide, by decide, by decide, by decide⟩
  refine ⟨pc2Reg (rotatedHalves s.engine.desKey 1), pc2Reg (rotatedHalves s.engine.desKey 2), ?_,
    fun i hi => ⟨pc2Reg_getLsbD _ hi, pc2Reg_getLsbD _ hi⟩⟩
  rw [exec_running hh, ruleOf_desks, Engine.withDesKeys]

/-- Halves a rotation by one place keeps are the same halves after one shift and after two (R169). -/
theorem rotatedHalves_two_eq_one {key : BitVec 56} (hc : (key.extractLsb' 28 28).rotateLeft 1 = key.extractLsb' 28 28)
    (hd : (key.extractLsb' 0 28).rotateLeft 1 = key.extractLsb' 0 28) : rotatedHalves key 2 = rotatedHalves key 1 := by
  rw [rotatedHalves, ← rotateLeft_rotateLeft _ 1 1, ← rotateLeft_rotateLeft _ 1 1, hc, hd, hc, hd, rotatedHalves, hc, hd]

/-- Settles O40: both round keys are PC-2 of the same halves; the four keys are evaluated. -/
theorem roundKeysCoincideOnUniformHalves : Obligations.RoundKeysCoincideOnUniformHalves := by
  unfold Obligations.RoundKeysCoincideOnUniformHalves
  refine ⟨fun key hc hd => ?_, List.forall_iff_forall_mem.mp (by decide)⟩
  rw [roundKeys_eq, rotatedHalves_two_eq_one hc hd]

end Sys2Proof.Machine

namespace Sys2Proof.Machine

/-! ## The S-box stage in register terms (R176, R177) -/

/-- Every cell of the bank is a 4-bit value (R176). -/
theorem desSbox_lt : ∀ (i : Fin 8) (row : Fin 4) (col : Fin 16), desSbox i.val row.val col.val < 16 := by decide

/-- Blocks of one length after another: position j of block i stands j places after the blocks before it. -/
theorem bitAt_flatMap_range {f : Nat → BitString} {m : Nat} (hf : ∀ i, (f i).length = m) {n i j : Nat} (hi : i < n)
    (hj : j < m) : bitAt ((List.range n).flatMap f) (m * i + j) = bitAt (f i) j := by
  induction n with
  | zero => exact absurd hi (Nat.not_lt_zero i)
  | succ n ih =>
    have hlen : ((List.range n).flatMap f).length = m * n := by simp [List.length_flatMap, hf, Nat.mul_comm]
    rw [List.range_succ, List.flatMap_append, List.flatMap_singleton]
    rcases Nat.lt_succ_iff_lt_or_eq.mp hi with hlt | rfl
    · have hblock : m * i + m ≤ m * n := Nat.mul_le_mul_left m hlt
      rw [bitAt_append_left (by rw [hlen]; omega), ih hlt]
    · rw [bitAt_append_right (by omega), hlen, Nat.add_sub_cancel_left]

/-- A 4-bit value by its bits, the first one most significant (R14). -/
theorem toNat_eq_bits (y : BitVec 4) :
    8 * (y.getLsbD 3).toNat + 4 * (y.getLsbD 2).toNat + 2 * (y.getLsbD 1).toNat + (y.getLsbD 0).toNat = y.toNat := by
  revert y
  decide

/-- The row of block i: its first bit and its last (R177). -/
def sboxRow (x : BitVec 48) (i : Nat) : Nat := 2 * (x.getLsbD (47 - 6 * i)).toNat + (x.getLsbD (42 - 6 * i)).toNat

/-- The cell that block i selects: its row, and its middle four bits for the column (R177). -/
def sboxCell (x : BitVec 48) (i : Nat) : Nat := desSbox i (sboxRow x i) (x.extractLsb' (43 - 6 * i) 4).toNat

theorem sboxCell_lt (x : BitVec 48) {i : Nat} (hi : i < 8) : sboxCell x i < 16 := by
  have hrow : sboxRow x i < 4 := by
    have h1 := Bool.toNat_lt (x.getLsbD (47 - 6 * i))
    have h0 := Bool.toNat_lt (x.getLsbD (42 - 6 * i))
    unfold sboxRow
    omega
  exact desSbox_lt ⟨i, hi⟩ ⟨_, hrow⟩ ⟨_, (x.extractLsb' (43 - 6 * i) 4).isLt⟩

/-- Block i of a register's string is the string of its cell (R177). -/
theorem sboxBlock_str (x : BitVec 48) {i : Nat} (hi : i < 8) : sboxBlock (str x.toNat 48) i = str (sboxCell x i) 4 := by
  have hbit (p : Nat) (hp : p < 6) : bitAt (str x.toNat 48) (6 * i + p) = x.getLsbD (42 - 6 * i + (5 - p)) := by
    have hpos : 48 - 1 - (6 * i + p) = 42 - 6 * i + (5 - p) := by omega
    rw [bitAt_str_reg x (by omega), hpos]
  have hrow : 47 - 6 * i = 42 - 6 * i + 5 := by omega
  have hcol : 43 - 6 * i = 42 - 6 * i + 1 := by omega
  simp only [sboxBlock, sboxCell, sboxRow, ← toNat_eq_bits, hbit, Nat.reduceLT, hrow, hcol]
  simp [Nat.add_assoc]

/-- Bits 31-4i to 28-4i of the result are the cell of block i (R177). -/
theorem sboxReg_extractLsb' (x : BitVec 48) {i : Nat} (hi : i < 8) :
    (sboxReg x).extractLsb' (28 - 4 * i) 4 = BitVec.ofNat 4 (sboxCell x i) := by
  refine BitVec.eq_of_getLsbD_eq fun j hj => ?_
  have hout : (sboxReg x).getLsbD (28 - 4 * i + j) = bitAt (sboxSub (str x.toNat 48)) (4 * i + (3 - j)) := by
    have hpos : (sboxSub (str x.toNat 48)).length - 1 - (4 * i + (3 - j)) = 28 - 4 * i + j := by
      rw [sboxSub_length]
      omega
    rw [← hpos]
    exact getLsbD_ofNat_val (by rw [sboxSub_length]; omega) (sboxSub_length _).le
  have hcell : 4 - 1 - (3 - j) = j := by omega
  rw [BitVec.getLsbD_extractLsb', hout, sboxSub, bitAt_flatMap_range (sboxBlock_length _) hi (by omega),
    sboxBlock_str x hi, bitAt_str (by omega), hcell, BitVec.getLsbD_ofNat]

/-- Settles O41: each cell is a 4-bit value, so its bits in the result are its number; the examples are evaluated. -/
theorem dessboxSubstitutesEightBlocks : Obligations.DessboxSubstitutesEightBlocks := by
  unfold Obligations.DessboxSubstitutesEightBlocks
  refine ⟨fun s hh => ⟨sboxReg s.engine.desRk, exec_running hh .dessbox, rfl, fun i hi => ?_⟩, rfl,
    by decide, by decide, by decide, by decide, by decide⟩
  rw [sboxReg_extractLsb' _ hi, BitVec.toNat_ofNat]
  exact Nat.mod_eq_of_lt (sboxCell_lt _ hi)

/-! ## The round function in register terms (R182) -/

/-- `xor` of two registers' strings is the registers' exclusive-or (R15). -/
theorem xorStr_str {w : Nat} (x y : BitVec w) : xorStr (str x.toNat w) (str y.toNat w) = str (x ^^^ y).toNat w := by
  refine eq_str_of_getMsbD (by simp) fun p hp => ?_
  rw [bitAt_xorStr (by rwa [str_length]) (by rwa [str_length]), bitAt_str_getMsbD x hp, bitAt_str_getMsbD y hp,
    BitVec.getMsbD_xor]

/-- `val(permute(str(r, 32), E))` on register values. -/
def expandReg (r : BitVec 32) : BitVec 48 := BitVec.ofNat 48 (val (permute (str r.toNat 32) tE))

/-- `val(permute(str(v, 32), P))` on register values. -/
def pReg (v : BitVec 32) : BitVec 32 := BitVec.ofNat 32 (val (permute (str v.toNat 32) tP))

/-- E names positions of 32 bits (R152). -/
theorem tE_wf : permTableWf 32 48 tE = true := by decide

/-- P names positions of 32 bits (R153). -/
theorem tP_wf : permTableWf 32 32 tP = true := by decide

/-- Bit 47-i of the expansion is the bit its entry i names (R152). -/
theorem expandReg_getLsbD (r : BitVec 32) {i : Nat} (hi : i < 48) :
    (expandReg r).getLsbD (47 - i) = r.getLsbD (32 - tE.getD i 0) :=
  getLsbD_ofNat_val_permute tE_wf r hi

/-- Bit 31-i of P's result is the bit its entry i names (R153). -/
theorem pReg_getLsbD (v : BitVec 32) {i : Nat} (hi : i < 32) :
    (pReg v).getLsbD (31 - i) = v.getLsbD (32 - tP.getD i 0) :=
  getLsbD_ofNat_val_permute tP_wf v hi

/-- R182 on registers: expand, exclusive-or with the round key, substitute, permute. -/
theorem feistelReg_eq (r : BitVec 32) (k : BitVec 48) : feistelReg r k = pReg (sboxReg (expandReg r ^^^ k)) := by
  have hexpand : permute (str r.toNat 32) tE = str (expandReg r).toNat 48 := (str_ofNat_val (permute_length _ _)).symm
  have hsubst (x : BitVec 48) : sboxSub (str x.toNat 48) = str (sboxReg x).toNat 32 :=
    (str_ofNat_val (sboxSub_length _)).symm
  simp only [feistelReg, feistelF, hexpand, xorStr_str, hsubst, pReg]

/-- Settles O42: the S-box stage's input is the expansion exclusive-or the key; the examples are evaluated. -/
theorem desfComputesTheRoundFunction : Obligations.DesfComputesTheRoundFunction := by
  unfold Obligations.DesfComputesTheRoundFunction
  refine ⟨fun s hh => ?_, rfl, by decide, by decide, by decide, by decide, by decide, by decide, by decide, by decide,
    by decide, by decide, by decide⟩
  refine ⟨expandReg s.engine.desR ^^^ s.engine.desRk, feistelReg s.engine.desR s.engine.desRk,
    exec_running hh .desf, rfl, fun i hi => ?_, fun i hi => ?_⟩
  · rw [BitVec.getLsbD_xor, expandReg_getLsbD _ hi]
  · rw [feistelReg_eq, pReg_getLsbD _ hi]

/-- E takes the complement to the complement: each of its bits is a bit of the source (R141). -/
theorem expandReg_not (r : BitVec 32) : expandReg (~~~r) = ~~~expandReg r := by
  refine BitVec.eq_of_getLsbD_eq fun j hj => ?_
  obtain ⟨i, hi, rfl⟩ : ∃ i < 48, j = 47 - i := ⟨47 - j, by omega, by omega⟩
  obtain ⟨hlen, hent⟩ := permTableWf_iff.mp tE_wf
  have hmem : tE.getD i 0 ∈ tE := by
    rw [List.getD_eq_getElem tE 0 (by rwa [hlen])]
    exact List.getElem_mem _
  have hsrc : 32 - tE.getD i 0 < 32 := by
    have := hent _ hmem
    omega
  rw [expandReg_getLsbD _ hi, BitVec.getLsbD_not, BitVec.getLsbD_not, expandReg_getLsbD _ hi, decide_eq_true hsrc,
    decide_eq_true hj]

/-- Settles O44: both complements cancel in the exclusive-or before the S-box stage. -/
theorem roundFunctionIgnoresJointComplement : Obligations.RoundFunctionIgnoresJointComplement := by
  unfold Obligations.RoundFunctionIgnoresJointComplement
  intro r k
  have hcancel : ~~~expandReg r ^^^ ~~~k = expandReg r ^^^ k := by
    rw [← BitVec.not_xor_left, ← BitVec.not_xor_right, BitVec.not_not]
  rw [feistelReg_eq, feistelReg_eq, expandReg_not, hcancel]

/-! ## The round function by single commands (R184) -/

/-- A register zero-extended to a value of WRITE fits every register at least as wide (R61). -/
theorem toNat_setWidth_128_lt {w n : Nat} (x : BitVec w) (hw : w ≤ n) (hn : n ≤ 128) :
    (x.setWidth 128).toNat < 2 ^ n := by
  rw [BitVec.toNat_setWidth_of_le (hw.trans hn)]
  exact x.isLt.trans_le (Nat.pow_le_pow_right (by decide) hw)

/-- The engine with the 32-bit source x loaded for a PERM command, the length first, as LDSRC does (R93). -/
def Engine.loadSource (e : Engine) (x : BitVec 32) : Engine := (e.set .permSrclen 32).set .permSrc (x.setWidth 128)

theorem Engine.loadSource_halted (e : Engine) (x : BitVec 32) : (e.loadSource x).halted = e.halted := by
  rw [Engine.loadSource, Engine.set_halted _ rfl, Engine.set_halted _ rfl]

@[simp] theorem Engine.withPermOut_halted (e : Engine) (v : BitVec 64) (m : BitVec 7) :
    (e.withPermOut v m).halted = e.halted := (rfl)

@[simp] theorem Engine.withDesF_halted (e : Engine) (v : BitVec 32) : (e.withDesF v).halted = e.halted := (rfl)

/-- `PERM_OUT` holds the permuted register with zeros above (R143). -/
theorem permReg_setWidth {n m : Nat} {T : List Nat} (hn : n ≤ 64) (hT : T.length = m) (hm : m ≤ 64) (x : BitVec n) :
    permReg (x.setWidth 64) n T = (BitVec.ofNat m (val (permute (str x.toNat n) T))).setWidth 64 := by
  have hlt := val_lt (permute (str x.toNat n) T)
  rw [permute_length, hT] at hlt
  rw [permReg, BitVec.toNat_setWidth_of_le hn, BitVec.setWidth_ofNat_of_le_of_lt hm hlt]

/-- A ROM-table command on a loaded 32-bit source passes its checks and writes its outputs (R144, R147). -/
theorem permRom_loadSource (T : List Nat) (e : Engine) (x : BitVec 32) : permRom 32 T (e.loadSource x)
    = (e.loadSource x).withPermOut (permReg (x.setWidth 64) 32 T) (BitVec.ofNat 7 T.length) := by
  have hsrc : (e.loadSource x).permSrc = x.setWidth 64 := BitVec.setWidth_setWidth_of_le x (l := 128) (by decide)
  have hlen : (e.loadSource x).permSrclen.toNat = 32 := rfl
  have hfits : srcTooLong (e.loadSource x) = false := by
    apply srcTooLong_eq_false
    rw [hsrc, hlen, BitVec.toNat_setWidth_of_le (by decide)]
    exact x.isLt
  rw [permRom_output T hlen hfits, permOutput, hsrc]

/-- PERM.E on a loaded source (R147, R152). -/
theorem ruleOf_permE_loadSource (e : Engine) (x : BitVec 32) :
    ruleOf .permE (e.loadSource x) = (e.loadSource x).withPermOut ((expandReg x).setWidth 64) 48 := by
  rw [ruleOf, permRom_loadSource, permReg_setWidth (m := 48) (by decide) (by decide) (by decide), expandReg]
  rfl

/-- PERM.P on a loaded source (R147, R153). -/
theorem ruleOf_permP_loadSource (e : Engine) (x : BitVec 32) :
    ruleOf .permP (e.loadSource x) = (e.loadSource x).withPermOut ((pReg x).setWidth 64) 32 := by
  rw [ruleOf, permRom_loadSource, permReg_setWidth (m := 32) (by decide) (by decide) (by decide), pReg]
  rfl

/-- A line and then a command: the command's rule on the engine the line left. -/
theorem perform_seq_run {p : HostProg} {s t : State} (hp : p.perform s = .next t) (hh : t.engine.halted = false)
    (i : Instr) : (p.seq (.run i)).perform s = .next { t with engine := ruleOf i t.engine, response := none } :=
  (perform_seq hp).trans (issue_command hh i)

section
variable {s : State} (hh : s.engine.halted = false)
include hh

/-- The line `WR` of a zero-extended register that fits writes it (R61, R92). -/
theorem perform_wr {r : Reg} {w : Nat} (x : BitVec w) (hw : r.hostWritable = true) (hx : w ≤ r.width)
    (hr : r.width ≤ 128) : (HostProg.wr r.id (x.setWidth 128)).perform s
      = .next { s with engine := s.engine.set r (x.setWidth 128), response := none } :=
  issue_write_fits hh hw (toNat_setWidth_128_lt x hx hr)

/-- The write of the source length, with which both ways to load a 32-bit source begin. -/
theorem perform_wr_permSrclen : (HostProg.wr 0x21#8 32).perform s
    = .next { s with engine := s.engine.set .permSrclen 32, response := none } :=
  issue_write_fits (r := .permSrclen) hh rfl (by decide)

/-- LDSRC of a 32-bit value loads it (R93). -/
theorem perform_ldsrc (x : BitVec 32) : (HostProg.ldsrc 32 (x.setWidth 128)).perform s
    = .next { s with engine := s.engine.loadSource x, response := none } := by
  have hrun : (s.engine.set .permSrclen 32).halted = false := by rwa [Engine.set_halted _ rfl]
  have hsrc := perform_wr (s := { s with engine := s.engine.set .permSrclen 32, response := none }) hrun (r := .permSrc) x
    rfl (by decide) (by decide)
  exact (issueAll_cons (perform_wr_permSrclen hh)).trans (issueAll_cons hsrc)

/-- The write of the source length and a MOV from `DES_F` load the value of `DES_F` (R93). -/
theorem perform_mov_desF : (HostProg.mov 0x20#8 0x12#8).perform
      { s with engine := s.engine.set .permSrclen 32, response := none }
    = .next { s with engine := s.engine.loadSource s.engine.desF, response := none } := by
  have hrun : (s.engine.set .permSrclen 32).halted = false := by rwa [Engine.set_halted _ rfl]
  exact perform_mov (dst := .permSrc) (src := .desF) hrun rfl
    (toNat_setWidth_128_lt s.engine.desF (by decide) (by decide))

/-- The first stage: LDSRC and PERM.E expand the value the host loads. -/
theorem perform_permE (x : BitVec 32) : ∃ t : State,
    (HostProg.seq (.ldsrc 32 (x.setWidth 128)) (.run .permE)).perform s = .next t ∧
      t.engine.halted = false ∧ t.engine.permOut = (expandReg x).setWidth 64 := by
  have hrun : (s.engine.loadSource x).halted = false := by rwa [Engine.loadSource_halted]
  refine ⟨_, perform_seq_run (perform_ldsrc hh x) hrun .permE, ?_⟩
  rw [ruleOf_permE_loadSource]
  exact ⟨(Engine.withPermOut_halted _ _ _).trans hrun, Engine.withPermOut_permOut _ _ _⟩

/-- The second stage: a write of `DES_RK` and DESSBOX substitute the value the host writes. -/
theorem perform_dessbox (x : BitVec 48) : ∃ t : State,
    (HostProg.seq (.wr 0x11#8 (x.setWidth 128)) (.run .dessbox)).perform s = .next t ∧
      t.engine.halted = false ∧ t.engine.desF = sboxReg x := by
  have hrun : (s.engine.set .desRk (x.setWidth 128)).halted = false := by rwa [Engine.set_halted _ rfl]
  have hrk : (s.engine.set .desRk (x.setWidth 128)).desRk = x := by simp [Engine.set]
  have hwr := perform_wr hh (r := .desRk) x rfl (by decide) (by decide)
  refine ⟨_, perform_seq_run hwr hrun .dessbox, ?_⟩
  simp only [ruleOf, hrk]
  exact ⟨(Engine.withDesF_halted _ _).trans hrun, Engine.withDesF_desF _ _⟩

/-- The third stage: moving `DES_F` to `PERM_SRC` and PERM.P permute it. -/
theorem perform_permP : ∃ t : State,
    (HostProg.seq (.wr 0x21#8 32) (.seq (.mov 0x20#8 0x12#8) (.run .permP))).perform s = .next t ∧
      t.engine.permOut = (pReg s.engine.desF).setWidth 64 := by
  have hrun : (s.engine.loadSource s.engine.desF).halted = false := by rwa [Engine.loadSource_halted]
  refine ⟨_, (perform_seq (perform_wr_permSrclen hh)).trans (perform_seq_run (perform_mov_desF hh) hrun .permP), ?_⟩
  rw [ruleOf_permP_loadSource, Engine.withPermOut_permOut]

end

/-- Settles O43: the three stages leave the values of R182 in turn. -/
theorem stagewiseRoundFunctionEqualsDesf : Obligations.StagewiseRoundFunctionEqualsDesf := by
  unfold Obligations.StagewiseRoundFunctionEqualsDesf
  intro s r k hh
  obtain ⟨t1, hstage1, hrun1, hexpand⟩ := perform_permE hh r
  have hx : t1.engine.permOut.setWidth 48 = expandReg r := by simp [hexpand]
  obtain ⟨t2, hstage2, hrun2, hsubst⟩ := perform_dessbox hrun1 (t1.engine.permOut.setWidth 48 ^^^ k)
  obtain ⟨t3, hstage3, hpermute⟩ := perform_permP hrun2
  refine ⟨t1, t2, t3, hstage1, hstage2, hstage3, ?_⟩
  rw [hpermute, hsubst, hx, feistelReg_eq]

end Sys2Proof.Machine

namespace Sys2Proof.Machine

/-! ## The two-round cipher in register terms (R190, R192) -/

/-- IP names positions of 64 bits (R150). -/
theorem tIP_wf : permTableWf 64 64 tIP = true := by decide

/-- FP names positions of 64 bits (R151). -/
theorem tFP_wf : permTableWf 64 64 tFP = true := by decide

/-- The cipher on strings under two given round keys: `des2` gives it K1 and K2, the host's inverse K2 and K1 (R190, R193). -/
def twoRoundString (s k1 k2 : BitString) : BitString :=
  let l0 := substr (permute s tIP) 0 31
  let r0 := substr (permute s tIP) 32 63
  let r1 := xorStr l0 (feistelF r0 k1)
  permute (xorStr r0 (feistelF r1 k2) ++ r1) tFP

theorem des2_eq (p key : BitString) : des2 p key = twoRoundString p (keySchedule key).1 (keySchedule key).2 := rfl

theorem des2HostDecrypt_eq (c key : BitString) :
    des2HostDecrypt c key = twoRoundString c (keySchedule key).2 (keySchedule key).1 := rfl

/-- The two Feistel rounds of a block in a register, with the final swap `R2 || L2` (R190, R192). -/
def feistelRounds (v : BitVec 64) (k1 k2 : BitVec 48) : BitVec 64 :=
  let l0 := v.extractLsb' 32 32
  let r0 := v.extractLsb' 0 32
  let r1 := l0 ^^^ feistelReg r0 k1
  (r0 ^^^ feistelReg r1 k2) ++ r1

/-- The cipher on registers under two given round keys (R190). -/
def twoRoundReg (v : BitVec 64) (k1 k2 : BitVec 48) : BitVec 64 :=
  permReg (feistelRounds (permReg v 64 tIP) k1 k2) 64 tFP

/-- A permutation of a 64-bit register onto 64 positions (R143). -/
theorem permute_str_64 {T : List Nat} (hT : T.length = 64) (v : BitVec 64) :
    permute (str v.toNat 64) T = str (permReg v 64 T).toNat 64 :=
  (str_ofNat_val ((permute_length _ _).trans hT)).symm

/-- The half a round writes (R190). -/
theorem xorStr_feistelF_str (l r : BitVec 32) (k : BitVec 48) :
    xorStr (str l.toNat 32) (feistelF (str r.toNat 32) (str k.toNat 48)) = str (l ^^^ feistelReg r k).toNat 32 := by
  have hf : feistelF (str r.toNat 32) (str k.toNat 48) = str (feistelReg r k).toNat 32 :=
    (str_ofNat_val (feistelF_length _ _)).symm
  rw [hf, xorStr_str]

/-- On a register's string the cipher gives the string of its register form (R190). -/
theorem twoRoundString_str (v : BitVec 64) (k1 k2 : BitVec 48) :
    twoRoundString (str v.toNat 64) (str k1.toNat 48) (str k2.toNat 48) = str (twoRoundReg v k1 k2).toNat 64 := by
  have hl (x : BitVec 64) : substr (str x.toNat 64) 0 31 = str (x.extractLsb' 32 32).toNat 32 :=
    substr_str x (by decide) (by decide)
  have hr (x : BitVec 64) : substr (str x.toNat 64) 32 63 = str (x.extractLsb' 0 32).toNat 32 :=
    substr_str x (by decide) (by decide)
  simp only [twoRoundString, permute_str_64 (T := tIP) rfl, hl, hr, xorStr_feistelF_str, str_append_str, Nat.reduceAdd,
    permute_str_64 (T := tFP) rfl, twoRoundReg, feistelRounds]

/-- The strings of a key's round keys are those of its round key registers (R166, R167). -/
theorem keySchedule_str (key : BitVec 56) :
    keySchedule (str key.toNat 56) = (str (roundKeys key).1.toNat 48, str (roundKeys key).2.toNat 48) := by
  obtain ⟨h1, h2⟩ := keySchedule_length (str key.toNat 56)
  exact Prod.ext (str_ofNat_val h1).symm (str_ofNat_val h2).symm

/-- The register form of `des2` (R190). -/
theorem des2Reg_eq (p : BitVec 64) (key : BitVec 56) :
    des2Reg p key = twoRoundReg p (roundKeys key).1 (roundKeys key).2 := by
  rw [des2Reg, des2_eq, keySchedule_str, twoRoundString_str, ofNat_val_str]

/-- Every register is its upper part beside its lower part. -/
theorem exists_append {m n : Nat} (v : BitVec (m + n)) : ∃ (l : BitVec m) (r : BitVec n), v = l ++ r :=
  ⟨v.extractLsb' n m, v.extractLsb' 0 n, by
    rw [BitVec.extractLsb'_append_extractLsb'_eq_extractLsb' (Nat.zero_add n).symm, BitVec.extractLsb'_eq_self]⟩

/-- The rounds on a block given by its halves (R190, R192). -/
theorem feistelRounds_append (l r : BitVec 32) (k1 k2 : BitVec 48) : feistelRounds (l ++ r) k1 k2
    = (r ^^^ feistelReg (l ^^^ feistelReg r k1) k2) ++ (l ^^^ feistelReg r k1) := by
  rw [feistelRounds, BitVec.extractLsb'_append_eq_left, BitVec.extractLsb'_append_eq_right]

/-- An update of the round keys and one of `DES_CT` are one update. -/
theorem Engine.withDesCt_withDesKeys_eq (e : Engine) (k1 k2 : BitVec 48) (ct : BitVec 64) :
    (e.withDesKeys k1 k2).withDesCt ct = { e with desK1 := k1, desK2 := k2, desCt := ct } := rfl

/-- DES2ENC's rule as one update of the three registers it writes (R191). -/
theorem ruleOf_des2enc (e : Engine) : ruleOf .des2enc e
    = { e with desK1 := (roundKeys e.desKey).1, desK2 := (roundKeys e.desKey).2, desCt := des2Reg e.desPt e.desKey } :=
  Engine.withDesCt_withDesKeys_eq e _ _ _

/-- Settles O45: the command's rule writes both round keys and the register form of the cipher, whose halves are those of
IP's result; the examples are evaluated. -/
theorem des2encRunsTheTwoRoundCipher : Obligations.Des2encRunsTheTwoRoundCipher := by
  unfold Obligations.Des2encRunsTheTwoRoundCipher
  refine ⟨fun s hh => ?_, rfl, by decide, by decide, by decide, by decide, by decide, by decide, by decide, by decide,
    by decide, by decide⟩
  obtain ⟨l0, r0, hip⟩ := exists_append (m := 32) (n := 32) (permReg s.engine.desPt 64 tIP)
  refine ⟨l0, r0, _, _, (roundKeys s.engine.desKey).1, (roundKeys s.engine.desKey).2,
    des2Reg s.engine.desPt s.engine.desKey, ?_, ?_, fun i hi => ?_, rfl, rfl, fun i hi => ?_⟩
  · rw [exec_running hh, ruleOf_des2enc]
  · simp only [exec_running hh, ruleOf, Engine.withDesKeys]
  · rw [← hip]
    exact (permReg_of_wf tIP_wf le_rfl s.engine.desPt).1 i hi
  · rw [des2Reg_eq, twoRoundReg, hip, feistelRounds_append]
    exact (permReg_of_wf tFP_wf le_rfl _).1 i hi

/-! ## The inverse a host can build (R193) -/

/-- The rounds with the keys in the other order undo the rounds: the swap has put each half where its round needs it. -/
theorem feistelRounds_cancel (v : BitVec 64) (k1 k2 : BitVec 48) :
    feistelRounds (feistelRounds v k1 k2) k2 k1 = v := by
  obtain ⟨l, r, rfl⟩ := exists_append (m := 32) (n := 32) v
  simp only [feistelRounds_append, xor_cancel_right]

/-- The cipher with the keys in the other order undoes the cipher: IP undoes FP, the rounds the rounds, FP IP (R155, R193). -/
theorem twoRoundReg_cancel (v : BitVec 64) (k1 k2 : BitVec 48) : twoRoundReg (twoRoundReg v k1 k2) k2 k1 = v := by
  obtain ⟨-, hreg⟩ := ipAndFpAreMutualInverses
  rw [twoRoundReg, twoRoundReg, (hreg _).2, feistelRounds_cancel, (hreg _).1]

/-- On a register's string under a key register the host's inverse gives the block back. -/
theorem des2HostDecrypt_des2_str (p : BitVec 64) (key : BitVec 56) :
    des2HostDecrypt (des2 (str p.toNat 64) (str key.toNat 56)) (str key.toNat 56) = str p.toNat 64 := by
  rw [des2_eq, des2HostDecrypt_eq, keySchedule_str, twoRoundString_str, twoRoundString_str, twoRoundReg_cancel]

/-- Settles O47: every string is a register's, and what has a left inverse is injective. -/
theorem hostCanInvertDes2enc : Obligations.HostCanInvertDes2enc := by
  unfold Obligations.HostCanInvertDes2enc
  refine ⟨fun p k hp hk => ?_, fun p q k h => ?_⟩
  · rw [← str_ofNat_val hp, ← str_ofNat_val hk]
    exact des2HostDecrypt_des2_str _ _
  · rw [des2Reg_eq, des2Reg_eq] at h
    rw [← twoRoundReg_cancel p, h, twoRoundReg_cancel]

/-! ## The complement (section 2.6 of spec/95_test_vectors.md) -/

/-- A permutation by a table fit for its source takes the complement to the complement: each bit it writes is a bit of the
source (R141). -/
theorem ofNat_val_permute_not {n m : Nat} {T : List Nat} (hT : permTableWf n m T = true) (x : BitVec n) :
    BitVec.ofNat m (val (permute (str (~~~x).toNat n) T)) = ~~~BitVec.ofNat m (val (permute (str x.toNat n) T)) := by
  refine BitVec.eq_of_getLsbD_eq fun j hj => ?_
  obtain ⟨i, hi, rfl⟩ : ∃ i < m, j = m - 1 - i := ⟨m - 1 - j, by omega, by omega⟩
  obtain ⟨hlen, hent⟩ := permTableWf_iff.mp hT
  have hsrc : n - T.getD i 0 < n := by
    have := hent T[i] (List.getElem_mem _)
    rw [List.getD_eq_getElem T 0 (hlen ▸ hi)]
    omega
  rw [BitVec.getLsbD_not, getLsbD_ofNat_val_permute hT _ hi, getLsbD_ofNat_val_permute hT _ hi, BitVec.getLsbD_not,
    decide_eq_true hsrc, decide_eq_true hj]

theorem permReg_not {T : List Nat} (hT : permTableWf 64 64 T = true) (v : BitVec 64) :
    permReg (~~~v) 64 T = ~~~permReg v 64 T :=
  ofNat_val_permute_not hT v

/-- Rotation moves bits only (R15). -/
theorem rotateLeft_not {w : Nat} (x : BitVec w) (k : Nat) : (~~~x).rotateLeft k = ~~~x.rotateLeft k := by
  refine BitVec.eq_of_getMsbD_eq fun p hp => ?_
  have hmod : (k + p) % w < w := Nat.mod_lt _ (by omega)
  simp [BitVec.getMsbD_rotateLeft, hp, hmod]

/-- The halves of a key given side by side rotate each on its own (R166). -/
theorem rotatedHalves_append (c d : BitVec 28) (k : Nat) :
    rotatedHalves (c ++ d) k = c.rotateLeft k ++ d.rotateLeft k := by
  rw [rotatedHalves, BitVec.extractLsb'_append_eq_left, BitVec.extractLsb'_append_eq_right]

theorem rotatedHalves_not (key : BitVec 56) (k : Nat) : rotatedHalves (~~~key) k = ~~~rotatedHalves key k := by
  obtain ⟨c, d, rfl⟩ := exists_append (m := 28) (n := 28) key
  have hnot (x y : BitVec 28) : ~~~(x ++ y : BitVec 56) = ~~~x ++ ~~~y := BitVec.not_append
  simp only [hnot, rotatedHalves_append, rotateLeft_not]

/-- The complemented key has the complemented round keys (R166). -/
theorem roundKeys_not (key : BitVec 56) : roundKeys (~~~key) = (~~~(roundKeys key).1, ~~~(roundKeys key).2) := by
  have hpc2 (v : BitVec 56) : pc2Reg (~~~v) = ~~~pc2Reg v := ofNat_val_permute_not tPC2_wf v
  simp only [roundKeys_eq, rotatedHalves_not, hpc2]

/-- Each round function sees its half and its key both complemented and stays the same, so the complement of the other half
stands (R182, R190). -/
theorem feistelRounds_not (v : BitVec 64) (k1 k2 : BitVec 48) :
    feistelRounds (~~~v) (~~~k1) (~~~k2) = ~~~feistelRounds v k1 k2 := by
  obtain ⟨l, r, rfl⟩ := exists_append (m := 32) (n := 32) v
  have hf : ∀ x k, feistelReg (~~~x) (~~~k) = feistelReg x k := roundFunctionIgnoresJointComplement
  have hnot (x y : BitVec 32) : ~~~(x ++ y : BitVec 64) = ~~~x ++ ~~~y := BitVec.not_append
  simp only [hnot, feistelRounds_append, ← BitVec.not_xor_left, hf]

/-- Settles O46: the round keys, the permutations and the rounds each take the complement to the complement. -/
theorem des2CommutesWithComplement : Obligations.Des2CommutesWithComplement := by
  unfold Obligations.Des2CommutesWithComplement
  intro p k
  rw [des2Reg_eq, des2Reg_eq, roundKeys_not, twoRoundReg, permReg_not tIP_wf, feistelRounds_not, permReg_not tFP_wf,
    twoRoundReg]

end Sys2Proof.Machine

namespace Sys2Proof.Machine

/-! ## The control commands (R200, R201) -/

/-- With no error recorded there is nothing to acknowledge (R201). -/
theorem Engine.acknowledge_of_no_error {e : Engine} (herr : e.err = false) (hcode : e.errcode = 0) : e.acknowledge = e := by
  have hst : withErrcode (withErr e.status false) 0 = e.status :=
    status_ext (by simpa [Engine.err] using herr.symm) (by simp) (by simpa [Engine.errcode] using hcode.symm) (by simp)
  rw [Engine.acknowledge_eq, hst]

/-- CLRERR when the engine runs: ERR and ERRCODE become 0 and nothing else is written (R201). -/
theorem exec_clrerr_running {s : State} (h : s.engine.halted = false) :
    exec .clrerr s
      = .next { s with engine := { s.engine with status := withErrcode (withErr s.engine.status false) 0 } } := by
  rw [exec_running h, ruleOf, Engine.acknowledge_eq]

/-- CLRERR with no error recorded changes nothing, under HALT or not (R201). -/
theorem exec_clrerr_of_no_error {s : State} (herr : s.engine.err = false) (hcode : s.engine.errcode = 0) :
    exec .clrerr s = .next s := by
  rw [exec_eq_command]
  exact command_of_fixed (Engine.acknowledge_of_no_error herr hcode)

/-- Settles O15: a running engine has ERR and ERRCODE cleared, a halted one (STATUS 0x13) is left as it is. -/
theorem clrerrClearsTheErrorOnly : Obligations.ClrerrClearsTheErrorOnly := by
  unfold Obligations.ClrerrClearsTheErrorOnly
  refine ⟨fun s hh => ?clears, fun s hinv herr => ?noError, fun s hh => exec_halted hh .clrerr,
    fun s hst => ?recoverable, fun s hst => ?fatal, rfl⟩
  case clears =>
    have hhalt : statusHalt s.engine.status = false := hh
    exact ⟨_, exec_clrerr_running hh, by simp, by simp, by simp [hhalt], by simp⟩
  case noError =>
    obtain ⟨-, -, hclear, -⟩ := hinv
    exact exec_clrerr_of_no_error herr (hclear herr).1
  case recoverable =>
    have hh : s.engine.halted = false := by rw [Engine.halted, hst]; decide
    have hcleared : withErrcode (withErr 0x0D false) 0 = 0x00 := by decide
    rw [exec_clrerr_running hh, hst, hcleared]
  case fatal =>
    have hh : s.engine.halted = true := by rw [Engine.halted, hst]; decide
    exact exec_halted hh .clrerr

/-- Settles O16: the rule of NOP is the identity, so it makes no difference whether HALT keeps it from running. -/
theorem nopChangesNothing : Obligations.NopChangesNothing := by
  unfold Obligations.NopChangesNothing
  refine ⟨fun s => ?_, rfl, decode_encode .nop⟩
  rw [exec_eq_command]
  exact command_of_fixed rfl

end Sys2Proof.Machine

namespace Sys2Proof.Machine

/-! ## The error entry (R215, R217, R218) -/

/-- The code an error entry leaves: the recorded one while ERR is set, otherwise its own (R215). -/
@[simp] theorem Engine.raise_errcode (e : Engine) (x : EpError) :
    (e.raise x).errcode = if e.err then e.errcode else x.code :=
  raisedStatus_errcode e.status x

theorem Engine.raise_reserved (e : Engine) (x : EpError) :
    statusReserved (e.raise x).status = statusReserved e.status :=
  raisedStatus_reserved e.status x

/-- Settles O13: each clause is what the error entry does to one field of STATUS, the last one that it writes STATUS only. -/
theorem errorEntryRecordsTheFirstError : Obligations.ErrorEntryRecordsTheFirstError := by
  unfold Obligations.ErrorEntryRecordsTheFirstError
  refine ⟨fun e x => ⟨e.raise_err x, ?firstCode, ?laterCode, ?fatal, ?recoverable, e.raise_reserved x, e.get_raise x⟩,
    rfl, rfl, rfl, rfl⟩
  case firstCode => intro herr; simp [herr]
  case laterCode => intro herr; simp [herr]
  case fatal => intro hx; simp [hx]
  case recoverable => intro hx; simp [hx]

/-- A recoverable error raised while ERR is set leaves every field of STATUS as it is (R217). -/
theorem Engine.raise_of_err {e : Engine} {x : EpError} (herr : e.err = true) (hx : x ≠ .tableIndex) : e.raise x = e := by
  have herr' : statusErr e.status = true := herr
  have hst : raisedStatus e.status x = e.status :=
    status_ext (by simp [herr']) (by simp [hx]) (by simp [herr']) (by simp)
  rw [Engine.raise_eq, hst]

/-- Settles O14: a later recoverable error is no change; a later fatal one adds HALT to the fields already there. -/
theorem laterErrorsKeepTheFirstCode : Obligations.LaterErrorsKeepTheFirstCode := by
  unfold Obligations.LaterErrorsKeepTheFirstCode
  refine ⟨fun e x => Engine.raise_of_err, fun e herr => ⟨by simp [herr], by simp, e.raise_err _⟩, fun e hst => ?_⟩
  have hraised : raisedStatus 0x0D .tableIndex = 0x0F := by decide
  rw [Engine.raise_eq, hst, hraised]

/-- Acknowledging clears what a recoverable error entry has written, so the entry leaves no trace (R218). -/
theorem Engine.acknowledge_raise (e : Engine) {x : EpError} (hx : x ≠ .tableIndex) :
    (e.raise x).acknowledge = e.acknowledge := by
  have hst : withErrcode (withErr (raisedStatus e.status x) false) 0 = withErrcode (withErr e.status false) 0 :=
    status_ext (by simp) (by simp [hx]) (by simp) (by simp)
  rw [Engine.acknowledge_eq, Engine.acknowledge_eq, Engine.raise_eq, hst]

/-- Settles O17: after a recoverable error the engine still runs, and CLRERR leaves what it would have left without the error:
with STATUS 0, no change. After a fatal one HALT keeps CLRERR from running. -/
theorem clrerrUndoesARecoverableError : Obligations.ClrerrUndoesARecoverableError := by
  unfold Obligations.ClrerrUndoesARecoverableError
  refine ⟨fun s x hst hx => ?_, fun s => exec_halted (by simp) .clrerr⟩
  obtain ⟨herr, hcode, hrun⟩ : s.engine.err = false ∧ s.engine.errcode = 0 ∧ s.engine.halted = false := by
    rw [Engine.err, Engine.errcode, Engine.halted, hst]
    decide
  have hundo : ruleOf .clrerr (s.engine.raise x) = s.engine :=
    (s.engine.acknowledge_raise hx).trans (Engine.acknowledge_of_no_error herr hcode)
  rw [exec_running (by simp [hx, hrun]), hundo]

/-! ## HALT is entered by PERM.USR and left by RESET (R211, R218, R219) -/

section halt
variable {e : Engine}

/-- No WRITE changes HALT: its error entries are recoverable, and STATUS is not host-RW (R61). -/
theorem Engine.halted_hostWrite (e : Engine) (id : RegId) (v : Word) : (e.hostWrite id v).halted = e.halted := by
  rcases e.hostWrite_cases id v with ⟨-, hw⟩ | ⟨-, hw, -⟩ | ⟨-, r, -, hrw, ⟨-, hw⟩ | ⟨-, hw⟩⟩
  · rw [hw]
  · simp [hw]
  · simp [hw]
  · rw [hw, Engine.set_halted e hrw]

/-- A PERM command sets HALT in one way only: PERM.USR, in an error entry TABLE_INDEX (R211). -/
theorem permCommand_halts {i : Instr} (hi : i ∈ [.permUsr, .permIp, .permFp, .permE, .permP, .permPc2])
    (hrun : e.halted = false) (hhalt : (ruleOf i e).halted = true) : i = .permUsr ∧ ruleOf i e = e.raise .tableIndex := by
  rcases permCommand_cases hi e with h | h | ⟨v, m, h⟩
  · simp [h, hrun] at hhalt
  · exact h
  · simp [h, hrun] at hhalt

/-- The only rule that sets HALT is that of PERM.USR: outside the permutation unit no rule writes it (R207, R211). -/
theorem ruleOf_halts {i : Instr} (hrun : e.halted = false) (hhalt : (ruleOf i e).halted = true) :
    i = .permUsr ∧ ruleOf i e = e.raise .tableIndex := by
  cases i with
  | permUsr | permIp | permFp | permE | permP | permPc2 => exact permCommand_halts (by decide) hrun hhalt
  | clrerr => simp [ruleOf, hrun] at hhalt
  | _ =>
    rw [Engine.halted, ruleOf_status (by decide), ← Engine.halted, hrun] at hhalt
    cases hhalt

/-- Under HALT a transaction leaves the engine as it is, RESET apart (R60, R63). -/
theorem TransactionEffect.of_halted {tr : Transaction} {e' : Engine} (ht : TransactionEffect e tr e')
    (hhalt : e.halted = true) : e' = e ∨ (tr = .reset ∧ e' = Engine.reset) := by
  cases tr with
  | reset => exact .inr ⟨rfl, ht⟩
  | write id v => exact .inl (ht.trans (Engine.hostWrite_halted hhalt))
  | read id => exact .inl ht
  | cmd c =>
    rcases ht with ⟨-, h⟩ | ⟨hrun, -⟩
    · exact .inl h
    · cases hhalt.symm.trans hrun

/-- A transaction that brings a running engine to HALT is the command word of PERM.USR, and what it does is the error entry
TABLE_INDEX (R211, R219). -/
theorem TransactionEffect.halts {tr : Transaction} {e' : Engine} (ht : TransactionEffect e tr e') (hrun : e.halted = false)
    (hhalt : e'.halted = true) : tr = .cmd 0x40#8 ∧ e' = e.raise .tableIndex := by
  cases tr with
  | reset =>
    obtain rfl : e' = Engine.reset := ht
    exact absurd hhalt (by decide)
  | write id v =>
    obtain rfl : e' = e.hostWrite id v := ht
    cases hhalt.symm.trans ((e.halted_hostWrite id v).trans hrun)
  | read id =>
    obtain rfl : e' = e := ht
    cases hhalt.symm.trans hrun
  | cmd c =>
    rcases ht with ⟨hhalt', -⟩ | ⟨-, ⟨i, hdec, rfl⟩ | ⟨-, rfl⟩⟩
    · cases hhalt'.symm.trans hrun
    · obtain ⟨rfl, hrule⟩ := ruleOf_halts hrun hhalt
      exact ⟨congrArg Transaction.cmd (encode_of_decode hdec).symm, hrule⟩
    · simp [hrun] at hhalt

end halt

/-- Settles O53: a step takes nothing or one transaction; under HALT only RESET has an effect on the engine, and in a running
engine only PERM.USR brings HALT about. -/
theorem haltIsEnteredByPermUsrAndLeftByReset : Obligations.HaltIsEnteredByPermUsrAndLeftByReset := by
  unfold Obligations.HaltIsEnteredByPermUsrAndLeftByReset
  refine ⟨fun s t hstep hhalt => ?left, fun s t hstep hrun hhalt => ?entered⟩
  case left =>
    obtain ⟨-, rfl⟩ | ⟨tr, rest, hp, -, ht⟩ := step_cases hstep
    · exact .inl rfl
    · simpa [hp] using ht.of_halted hhalt
  case entered =>
    obtain ⟨-, rfl⟩ | ⟨tr, rest, hp, -, ht⟩ := step_cases hstep
    · cases hhalt.symm.trans hrun
    · simpa [hp] using ht.halts hrun hhalt

/-! ## The state after RESET (R55, R236) -/

/-- Settles O2: the machine after reset holds the engine of RESET, where every register reads 0. -/
theorem resetStateIsAllZero : Obligations.ResetStateIsAllZero := by
  unfold Obligations.ResetStateIsAllZero
  exact ⟨Engine.get_reset, by decide, rfl, rfl⟩

end Sys2Proof.Machine
